-- ==== Sys2Proof/Word.lean ====
section
/-! DEFINITION. The bit-vector types of the block (00_scope.md R13: every state value is an unsigned
bit-vector of a stated width). -/

namespace Sys2Proof

/-- A 32-bit value: a register as the host sees it (R51), a read result R or a write operand D (R75). -/
abbrev Word := BitVec 32

/-- An 8-bit value: a column byte (R26), a glyph pattern (R165), a byte offset (R50). -/
abbrev Byte := BitVec 8

/-- An operation word OPW[15:0] (R70). -/
abbrev OpWord := BitVec 16

end Sys2Proof
end

