-- ==== Sys2Proof/Config.lean ====
section
/-! DEFINITION. The implementation parameters of 00_scope.md section 5 (R7 to R11) as the
model takes them, the two reset draws (R12) and the OPEN base address (R50). This hardware's values
stand in Sys2Proof/Machine/Parameters.lean. -/

namespace Sys2Proof

/-- NUM_MODE (R9): the arithmetic of the rate normaliser and of the digit extraction. -/
inductive NumMode where
  /-- exact rational arithmetic (R141) -/
  | exact
  /-- IEEE 754 binary32, round to nearest, ties to even (R142) -/
  | binary32
  deriving DecidableEq, Repr

/-- SVC_ORDER (R11): which service is enabled when both pending flags are set (R118). -/
inductive SvcOrder where
  | any
  | startFirst
  | stopFirst
  deriving DecidableEq, Repr

/-- One row of the glyph table (R10, R165): the pair (G0, G1) and the flag EXEMPT. -/
structure Glyph where
  g0 : Byte
  g1 : Byte
  exempt : Bool
  deriving DecidableEq, Repr

/-- The parameters the model takes as an argument (R7 to R11). They are held in the state as a
field that no step writes, so that a statement for every state is one for every choice of them
(DESIGN CHOICE, safe: notes/assumptions/3.md). -/
structure Config where
  /-- W, the width of CNT, START_TICK and INTERVAL (R7) -/
  cntWidth : Nat
  /-- F_CNT, ticks per second, the divisor of NORM (R8) -/
  fCnt : Nat
  /-- NUM_MODE (R9) -/
  numMode : NumMode
  /-- GLYPH, indexed by the digit 0..9 (R10) -/
  glyph : Vector Glyph 10
  /-- SVC_ORDER (R11) -/
  svcOrder : SvcOrder
  deriving DecidableEq, Repr

/-- The constraints (a) and (b) of R165 on one digit's row of GLYPH. -/
abbrev Glyph.Legal (d : Nat) (g : Glyph) : Prop :=
  if d = 3 then g.g0 = 0x15#8 ∧ g.g1 = 0x1F#8 ∧ g.exempt = true
  else g.exempt = false ∧ g.g0.toNat ≤ 15 ∧ g.g1.toNat ≤ 15

/-- The parameters the spec admits: 1 <= W <= 32 (R7), F_CNT >= 1 (R8), GLYPH under R165. -/
abbrev Config.Legal (c : Config) : Prop :=
  1 ≤ c.cntWidth ∧ c.cntWidth ≤ 32 ∧ 1 ≤ c.fCnt ∧ ∀ d : Fin 10, Glyph.Legal d.val c.glyph[d]

/-- The draw LVL_A0 (R12): the level of PIN_A recorded at reset, a free input under no law.
A FREE VALUE: no body, so nothing can be proved of it (notes/assumptions/5.md). -/
opaque Config.lvlA0 : Bool

/-- The draw LVL_B0 (R12): the level of PIN_B recorded at reset. A FREE VALUE
(notes/assumptions/5.md). -/
opaque Config.lvlB0 : Bool

/-- ECIT_BASE (R50): the block's base in a host's address space, OPEN, left to the platform. No
rule depends on it (notes/assumptions/14.md). -/
opaque Config.ecitBase : Nat

/-- The host physical address of a byte offset of the register space (R50). No step reads it. -/
def Config.hostAddress (off : Byte) : Nat := Config.ecitBase + off.toNat

end Sys2Proof
end

