-- ==== Sys2Proof/Syntax.lean ====
section
/-! DEFINITION. The operations of the block: one constructor of Instr for each row of
spec/opcode_table.json (30_encoding.md R77 to R80), the word of a trace (R88), and the four
agents (00_scope.md R6). -/

namespace Sys2Proof

/-- The four agents (R6). -/
inductive Agent where
  /-- CLK, the counter clock -/
  | clk
  /-- ENV, the pin environment -/
  | env
  /-- SVC, the service engine -/
  | svc
  /-- HOST, the main-loop software -/
  | host
  deriving DecidableEq, Repr

/-- DIR of a bus access together with the data operand that only a write carries (R72, R75). -/
inductive BusDir where
  | read
  | write (d : Word)
  deriving DecidableEq, Repr

/-- SIZE of a well-formed bus access (R72): 00, 01, 10. SIZE = 11 is reserved and has no name. -/
inductive BusSize where
  | b8
  | b16
  | b32
  deriving DecidableEq, Repr

/-- A well-formed format-B access: DIR (with D for a write), SIZE and OFFSET (R72, R80). -/
structure Access where
  dir : BusDir
  size : BusSize
  off : Byte
  deriving DecidableEq, Repr

/-- The fault codes (R221). -/
inductive FaultCode where
  /-- ERR_UNMAPPED -/
  | unmapped
  /-- ERR_SIZE -/
  | size
  /-- ERR_ALIGN -/
  | align
  /-- ERR_RO_WRITE -/
  | roWrite
  deriving DecidableEq, Repr

/-- The registers of the address map (R51). -/
inductive Reg where
  | ctrl
  | status
  | cnt
  | startTick
  | interval
  | colbufLo
  | colbufHi
  deriving DecidableEq, Repr

/-- The operations, one for each row of spec/opcode_table.json. -/
inductive Instr where
  /-- TICK (R100) -/
  | tick
  /-- PIN_A takes the level LVL (R112) -/
  | pinA (lvl : Bool)
  /-- PIN_B takes the level LVL (R113) -/
  | pinB (lvl : Bool)
  /-- SVC_START (R116) -/
  | svcStart
  /-- SVC_STOP (R117) -/
  | svcStop
  /-- RD_CTRL (R191) -/
  | rdCtrl
  /-- WR_CTRL with its data operand D (R192) -/
  | wrCtrl (d : Word)
  /-- RD_STATUS (R194) -/
  | rdStatus
  /-- RD_CNT (R193) -/
  | rdCnt
  /-- RD_START_TICK (R195) -/
  | rdStartTick
  /-- RD_INTERVAL (R196) -/
  | rdInterval
  /-- RD_COLBUF_LO (R197) -/
  | rdColbufLo
  /-- RD_COLBUF_HI (R198) -/
  | rdColbufHi
  /-- RD_COLB with the column index k = OPW[2:0] (R199) -/
  | rdColb (k : BitVec 3)
  /-- BUS_FAULT: a well-formed access that no row of R77 matches (R200) -/
  | busFault (a : Access)
  deriving DecidableEq, Repr

/-- One word of a trace (R88): the operation word, and beside it the data operand D (R75). The
field d has no meaning where the word is no write (notes/assumptions/7.md). -/
structure TraceWord where
  opw : OpWord
  d : Word
  deriving DecidableEq, Repr

/-- Why the decoder refuses a word (R84). -/
inductive RefuseReason where
  | reservedBus
  | reservedEvent
  | reservedService
  | reservedClass
  deriving DecidableEq, Repr

/-- The decoder's answer: an operation, or REFUSE with its reason (R81, R84). -/
inductive DecodeResult where
  | op (i : Instr)
  | refuse (r : RefuseReason)
  deriving DecidableEq, Repr

end Sys2Proof
end

