-- ==== Sys2Proof/Machine/Operands.lean ====
section
/-! DEFINITION. The operand forms of a bus access: the address map (20_memory.md R51), which
accesses are legal (R53, R54), the first applicable fault of the others (60_exceptions.md R221,
R223), and the agent of an operation (30_encoding.md R87). -/

namespace Sys2Proof

/-- DIR = 0 (R72). -/
def BusDir.isWrite (d : BusDir) : Bool :=
  match d with
  | .read => false
  | .write _ => true

/-- The number of a fault code (R221). -/
def FaultCode.number (c : FaultCode) : Nat :=
  match c with
  | .unmapped => 1
  | .size => 2
  | .align => 3
  | .roWrite => 4

/-- The offset of a register (R51). -/
def Reg.offset (r : Reg) : Byte :=
  match r with
  | .ctrl => 0x00#8
  | .status => 0x04#8
  | .cnt => 0x08#8
  | .startTick => 0x0C#8
  | .interval => 0x10#8
  | .colbufLo => 0x20#8
  | .colbufHi => 0x24#8

/-- A column byte: an offset in 0x20-0x27 (R51, R53). -/
def colOffset (off : Byte) : Bool := decide (0x20 ≤ off.toNat ∧ off.toNat ≤ 0x27)

/-- A mapped offset: 0x00-0x13 or 0x20-0x27 (R51). Only OFFSET is tested (C13). -/
def mappedOffset (off : Byte) : Bool := decide (off.toNat ≤ 0x13) || colOffset off

/-- The cause of ERR_SIZE at a mapped offset (R221): 16 bits anywhere, 8 bits outside the column
bytes. -/
def Access.badSize (a : Access) : Bool :=
  match a.size with
  | .b8 => !colOffset a.off
  | .b16 => true
  | .b32 => false

/-- The cause of ERR_ALIGN at a mapped offset (R54, R221). -/
def Access.badAlign (a : Access) : Bool :=
  match a.size with
  | .b32 => decide (a.off.toNat % 4 ≠ 0)
  | _ => false

/-- The cause of ERR_RO_WRITE for an access legal in size and alignment (R53, R221): a write to a
register other than CTRL. -/
def Access.roWrite (a : Access) : Bool :=
  a.dir.isWrite && decide (a.off ≠ Reg.offset .ctrl)

/-- The first applicable fault of an access, in the order of R223, or none where the access is
legal (a row of R77). -/
def Access.faultCode (a : Access) : Option FaultCode :=
  if mappedOffset a.off = false then some .unmapped
  else if a.badSize then some .size
  else if a.badAlign then some .align
  else if a.roWrite then some .roWrite
  else none

/-- The agent that takes the step of an operation (R87). -/
def Instr.agent (i : Instr) : Agent :=
  match i with
  | .tick => .clk
  | .pinA _ => .env
  | .pinB _ => .env
  | .svcStart => .svc
  | .svcStop => .svc
  | .rdCtrl => .host
  | .wrCtrl _ => .host
  | .rdStatus => .host
  | .rdCnt => .host
  | .rdStartTick => .host
  | .rdInterval => .host
  | .rdColbufLo => .host
  | .rdColbufHi => .host
  | .rdColb _ => .host
  | .busFault _ => .host

end Sys2Proof
end

