-- ==== Sys2Proof/WellFormed.lean ====
section
/-! DEFINITION. Which terms of Instr spell an operation of the block. The only check: BUS_FAULT
stands for an access that no row of 30_encoding.md R77 matches (R80), so its access has a fault. -/

namespace Sys2Proof

/-- The operation is one that some operation word spells (R80, R81). -/
def Instr.wellFormed (i : Instr) : Bool :=
  match i with
  | .busFault a => a.faultCode.isSome
  | .tick => true
  | .pinA _ => true
  | .pinB _ => true
  | .svcStart => true
  | .svcStop => true
  | .rdCtrl => true
  | .wrCtrl _ => true
  | .rdStatus => true
  | .rdCnt => true
  | .rdStartTick => true
  | .rdInterval => true
  | .rdColbufLo => true
  | .rdColbufHi => true
  | .rdColb _ => true

/-- The same as a proposition, for statements. -/
abbrev Instr.WellFormed (i : Instr) : Prop := i.wellFormed = true

end Sys2Proof
end

