-- ==== Sys2Proof/Decode.lean ====
section
/-! DEFINITION. The decoder, total on all 2^16 operation words (30_encoding.md R81), and after it
the encoder, from the same tables (R77 to R80). -/

namespace Sys2Proof

/-- CLASS = OPW[15:14] (R71). -/
def opClass (w : OpWord) : BitVec 2 := w.extractLsb' 14 2

/-- SIZE = OPW[12:11] (R72). -/
def busSizeField (w : OpWord) : BitVec 2 := w.extractLsb' 11 2

/-- RSV of format B = OPW[10:8] (R72). -/
def busRsv (w : OpWord) : BitVec 3 := w.extractLsb' 8 3

/-- OFFSET = OPW[7:0] (R72); also SID of format S (R74). -/
def lowByte (w : OpWord) : Byte := w.extractLsb' 0 8

/-- RSV of formats E and S = OPW[13:8] (R73, R74). -/
def highRsv (w : OpWord) : BitVec 6 := w.extractLsb' 8 6

/-- EVT = OPW[7:4] (R73). -/
def evtField (w : OpWord) : BitVec 4 := w.extractLsb' 4 4

/-- The second RSV field of format E = OPW[3:1] (R73). -/
def evtRsv (w : OpWord) : BitVec 3 := w.extractLsb' 1 3

/-- LVL = OPW[0] (R73). -/
def lvlField (w : OpWord) : Bool := w.getLsbD 0

/-- SIZE as a name; 11 is reserved (R72). -/
def decodeSize (f : BitVec 2) : Option BusSize :=
  if f = 0b00#2 then some .b8
  else if f = 0b01#2 then some .b16
  else if f = 0b10#2 then some .b32
  else none

/-- DIR = OPW[13] (R72), with the operand D for a write (R75). -/
def decodeDir (w : OpWord) (d : Word) : BusDir := if w.getLsbD 13 then .read else .write d

/-- The rows of R77, each by its match and mask. -/
def decodeBusRow (w : OpWord) (d : Word) : Option Instr :=
  if w = 0x3000#16 then some .rdCtrl
  else if w = 0x1000#16 then some (.wrCtrl d)
  else if w = 0x3008#16 then some .rdCnt
  else if w = 0x3004#16 then some .rdStatus
  else if w = 0x300C#16 then some .rdStartTick
  else if w = 0x3010#16 then some .rdInterval
  else if w = 0x3020#16 then some .rdColbufLo
  else if w = 0x3024#16 then some .rdColbufHi
  else if w &&& 0xFFF8#16 = 0x2020#16 then some (.rdColb (w.extractLsb' 0 3))
  else none

/-- CLASS 00, format B (R72, R77, R80): a reserved form is refused, a row of R77 is that row, and
every other well-formed word is BUS_FAULT. -/
def decodeBus (w : OpWord) (d : Word) : DecodeResult :=
  if busRsv w ≠ 0 then .refuse .reservedBus
  else
    match decodeSize (busSizeField w) with
    | none => .refuse .reservedBus
    | some size =>
      match decodeBusRow w d with
      | some i => .op i
      | none => .op (.busFault ⟨decodeDir w d, size, lowByte w⟩)

/-- CLASS 01, format E (R73, R78). -/
def decodeEvent (w : OpWord) : DecodeResult :=
  if highRsv w ≠ 0 ∨ evtRsv w ≠ 0 then .refuse .reservedEvent
  else if evtField w = 0b0000#4 then
    if lvlField w then .refuse .reservedEvent else .op .tick
  else if evtField w = 0b0001#4 then .op (.pinA (lvlField w))
  else if evtField w = 0b0010#4 then .op (.pinB (lvlField w))
  else .refuse .reservedEvent

/-- CLASS 10, format S (R74, R79). -/
def decodeService (w : OpWord) : DecodeResult :=
  if highRsv w ≠ 0 then .refuse .reservedService
  else if lowByte w = 0x01#8 then .op .svcStart
  else if lowByte w = 0x02#8 then .op .svcStop
  else .refuse .reservedService

/-- The decode procedure of R81. The operand d is kept only where the word is a write (R75). -/
def decode (w : OpWord) (d : Word) : DecodeResult :=
  if opClass w = 0b00#2 then decodeBus w d
  else if opClass w = 0b01#2 then decodeEvent w
  else if opClass w = 0b10#2 then decodeService w
  else .refuse .reservedClass

/-- The trace word that nbits bits of a number lay out: the operation word in bits 15..0, the
operand D in bits 47..16, every bit from nbits on being 0 (notes/assumptions/7.md). -/
def traceWordOfBits (nbits w : Nat) : TraceWord where
  opw := BitVec.ofNat 16 (w % 2 ^ nbits)
  d := BitVec.ofNat 32 ((w % 2 ^ nbits) / 2 ^ 16)

/-- What the decoder reads from the bits of a row of spec/opcode_table.json. -/
def decodeTableWord (nbits w : Nat) : Option Instr :=
  match decode (traceWordOfBits nbits w).opw (traceWordOfBits nbits w).d with
  | .op i => some i
  | .refuse _ => none

/-- SIZE as a field (R72). -/
def encodeSize (s : BusSize) : BitVec 2 :=
  match s with
  | .b8 => 0b00#2
  | .b16 => 0b01#2
  | .b32 => 0b10#2

/-- DIR as a field (R72). -/
def encodeDir (d : BusDir) : BitVec 1 :=
  match d with
  | .read => 1#1
  | .write _ => 0#1

/-- The operand beside a format-B word (R75); no operand is written as 0. -/
def encodeData (d : BusDir) : Word :=
  match d with
  | .read => 0#32
  | .write v => v

/-- The format-B word of an access: CLASS 00, DIR in bit 13, SIZE in bits 12:11, RSV 000, OFFSET in
bits 7:0 (R72). -/
def encodeAccess (a : Access) : OpWord :=
  (encodeDir a.dir).setWidth 16 <<< 13 ||| (encodeSize a.size).setWidth 16 <<< 11 |||
    a.off.setWidth 16

/-- The format-E word of an event: CLASS 01, EVT in bits 7:4, LVL in bit 0, the rest 0 (R73). -/
def encodeEvent (evt : BitVec 4) (lvl : Bool) : OpWord :=
  (0b01#2).setWidth 16 <<< 14 ||| evt.setWidth 16 <<< 4 ||| (BitVec.ofBool lvl).setWidth 16

/-- The format-S word of a service: CLASS 10, RSV 0, SID in bits 7:0 (R74). -/
def encodeService (sid : Byte) : OpWord := (0b10#2).setWidth 16 <<< 14 ||| sid.setWidth 16

/-- A 32-bit read of a register (R72, R77). -/
def encodeRead (r : Reg) : TraceWord := ⟨encodeAccess ⟨.read, .b32, r.offset⟩, 0#32⟩

/-- The encoder: the operation word of an operation, and the operand D beside it. -/
def encode (i : Instr) : TraceWord :=
  match i with
  | .tick => ⟨encodeEvent 0b0000#4 false, 0#32⟩
  | .pinA lvl => ⟨encodeEvent 0b0001#4 lvl, 0#32⟩
  | .pinB lvl => ⟨encodeEvent 0b0010#4 lvl, 0#32⟩
  | .svcStart => ⟨encodeService 0x01#8, 0#32⟩
  | .svcStop => ⟨encodeService 0x02#8, 0#32⟩
  | .rdCtrl => encodeRead .ctrl
  | .wrCtrl d => ⟨encodeAccess ⟨.write d, .b32, Reg.offset .ctrl⟩, d⟩
  | .rdStatus => encodeRead .status
  | .rdCnt => encodeRead .cnt
  | .rdStartTick => encodeRead .startTick
  | .rdInterval => encodeRead .interval
  | .rdColbufLo => encodeRead .colbufLo
  | .rdColbufHi => encodeRead .colbufHi
  | .rdColb k => ⟨encodeAccess ⟨.read, .b8, 0x20#8 + k.setWidth 8⟩, 0#32⟩
  | .busFault a => ⟨encodeAccess a, encodeData a.dir⟩

end Sys2Proof
end

