-- ==== Sys2Proof/Machine/Parameters.lean ====
section
/-! DEFINITION. What this hardware takes for the parameters of 00_scope.md R7 to R11. -/

namespace Sys2Proof

/-- REF_GLYPH, this hardware's table (R166). Row 3 is the source's; the other nine rows are the
spec's placeholder (decision D4). -/
def Config.refGlyph : Vector Glyph 10 :=
  #v[⟨0x1#8, 0xF#8, false⟩,
     ⟨0x2#8, 0x0#8, false⟩,
     ⟨0x3#8, 0xD#8, false⟩,
     ⟨0x15#8, 0x1F#8, true⟩,
     ⟨0x5#8, 0xB#8, false⟩,
     ⟨0x6#8, 0xA#8, false⟩,
     ⟨0x7#8, 0x9#8, false⟩,
     ⟨0x8#8, 0x8#8, false⟩,
     ⟨0x9#8, 0x7#8, false⟩,
     ⟨0xA#8, 0x6#8, false⟩]

/-- What this hardware takes: W = 32 (R7), F_CNT = 32768 (R8), EXACT (R9), REF_GLYPH (R10),
ANY (R11). -/
def Config.hardware : Config where
  cntWidth := 32
  fCnt := 32768
  numMode := .exact
  glyph := Config.refGlyph
  svcOrder := .any

end Sys2Proof
end

