-- ==== Sys2Proof/Machine/State.lean ====
section
/-! DEFINITION. The state of the block (10_state.md R22), the model's own fields beside it, the
reasons a step can stop, and the state after reset (R35, 70_reset_and_hazards.md R260). -/

namespace Sys2Proof.Machine

/-- A fault record {code, DIR, SIZE, OFFSET, D}, D only for writes (R221). -/
structure FaultRecord where
  code : FaultCode
  access : Access
  deriving DecidableEq, Repr

/-- What a bus step returns to the host (R190, R222). -/
inductive BusResponse where
  /-- the 32-bit result R of a read (R75) -/
  | result (r : Word)
  /-- a write returns nothing (R190) -/
  | noResult
  /-- a bus error in place of a result (R222) -/
  | busError
  deriving DecidableEq, Repr

/-- The complete state S of the block (R22), one field per element. CNT, START_TICK and INTERVAL
are W bits wide; they are held in 32-bit words and stay below 2^W (notes/assumptions/4.md). -/
structure Block where
  /-- CNT (R23) -/
  cnt : Word
  /-- START_TICK (R24) -/
  startTick : Word
  /-- INTERVAL (R25) -/
  interval : Word
  /-- COL[0..7] (R26) -/
  col : Vector Byte 8
  /-- CTRL.START_EN (R27) -/
  startEn : Bool
  /-- CTRL.STOP_EN (R27) -/
  stopEn : Bool
  /-- STATUS.START_PEND (R28) -/
  startPend : Bool
  /-- STATUS.STOP_PEND (R28) -/
  stopPend : Bool
  /-- STATUS.MEAS (R28) -/
  meas : Bool
  /-- LVL_A (R31) -/
  lvlA : Bool
  /-- LVL_B (R31) -/
  lvlB : Bool
  /-- FAULTS, oldest first (R32) -/
  faults : List FaultRecord
  deriving DecidableEq, Repr

/-- The machine: the block, and the model's own fields: the parameters (notes/assumptions/3.md),
what the last bus step returned to the host (notes/assumptions/6.md), and the operation words still
to be taken (R88, notes/assumptions/1.md). -/
structure State where
  block : Block
  cfg : Config
  resp : Option BusResponse
  trace : List TraceWord
  deriving DecidableEq, Repr

/-- Why a run is stuck. These are no bus faults: a bus fault (R221) is recorded and the run goes on,
so it is a next state. -/
inductive Fault where
  /-- SVC_START named where it is not enabled: no such step exists and the run is stuck at that
  word (R225, R88). Raised by the meaning of SVC_START. Safe: the model stops. -/
  | startNotEnabled
  /-- SVC_STOP named where it is not enabled (R225, R88). Raised by the meaning of SVC_STOP. Safe:
  the model stops. -/
  | stopNotEnabled
  deriving DecidableEq, Repr

/-- Why a word has no meaning. -/
inductive Refusal where
  /-- An instruction the model gives no meaning. Raised by no arm of exec: every row has its
  meaning. Safe: the model stops. -/
  | notModelled (mnemonic : String)
  /-- The decoder refused a reserved word (R82, R84): the run is refused. Raised by step. Safe. -/
  | reservedWord (r : RefuseReason)
  /-- The trace names no further operation, so no agent steps (R88). Raised by step. Safe. -/
  | traceEnded
  /-- BUS_FAULT applied to an access that is legal, which no operation word spells (R80): a term
  that is not well-formed. Raised by the meaning of BUS_FAULT. Safe. -/
  | notABusFault
  deriving DecidableEq, Repr

/-- Every element at the value of R35; the levels take the draws given. -/
def Block.reset (lvlA0 lvlB0 : Bool) : Block where
  cnt := 0#32
  startTick := 0#32
  interval := 0#32
  col := Vector.replicate 8 0x00#8
  startEn := false
  stopEn := false
  startPend := false
  stopPend := false
  meas := false
  lvlA := lvlA0
  lvlB := lvlB0
  faults := []

/-- The machine right after reset (R35, R260), with this hardware's parameters, no bus response yet
and no operation named yet (notes/assumptions/2.md, 3.md, 5.md, 6.md). -/
def State.reset : State where
  block := Block.reset Config.lvlA0 Config.lvlB0
  cfg := Config.hardware
  resp := none
  trace := []

end Sys2Proof.Machine
end

