-- ==== Sys2Proof/Machine/Ops.lean ====
section
/-! DEFINITION. The named operations over the state: one update per element, the bus responses,
recording a fault, arithmetic mod 2^W, reading a register, the next word of the trace, reset. -/

namespace Sys2Proof.Machine

/-- S.CNT <- v -/
def Block.setCnt (v : Word) (b : Block) : Block := { b with cnt := v }

/-- S.START_TICK <- v -/
def Block.setStartTick (v : Word) (b : Block) : Block := { b with startTick := v }

/-- S.INTERVAL <- v -/
def Block.setInterval (v : Word) (b : Block) : Block := { b with interval := v }

/-- S.COL <- c -/
def Block.setCol (c : Vector Byte 8) (b : Block) : Block := { b with col := c }

/-- S.CTRL.START_EN <- p, S.CTRL.STOP_EN <- q -/
def Block.setCtrl (p q : Bool) (b : Block) : Block := { b with startEn := p, stopEn := q }

/-- S.START_PEND <- p -/
def Block.setStartPend (p : Bool) (b : Block) : Block := { b with startPend := p }

/-- S.STOP_PEND <- p -/
def Block.setStopPend (p : Bool) (b : Block) : Block := { b with stopPend := p }

/-- S.MEAS <- p -/
def Block.setMeas (p : Bool) (b : Block) : Block := { b with meas := p }

/-- S.LVL_A <- p -/
def Block.setLvlA (p : Bool) (b : Block) : Block := { b with lvlA := p }

/-- S.LVL_B <- p -/
def Block.setLvlB (p : Bool) (b : Block) : Block := { b with lvlB := p }

/-- A record appended to FAULTS (R222). -/
def Block.addFault (r : FaultRecord) (b : Block) : Block := { b with faults := b.faults ++ [r] }

/-- The block replaced by a new one, the model's own fields kept. -/
def State.setBlock (b : Block) (s : State) : State := { s with block := b }

/-- The host receives a response (R190). -/
def State.respond (r : BusResponse) (s : State) : State := { s with resp := some r }

/-- The words still to be taken (R88). -/
def State.setTrace (ws : List TraceWord) (s : State) : State := { s with trace := ws }

/-- raise F(info) (R222), the one exception mechanism of the block: the record is appended to
FAULTS, the host gets a bus error in place of a result, and nothing else changes. There is no vector,
mode or return (R230, R232, R233). -/
def State.raiseFault (code : FaultCode) (a : Access) (s : State) : State :=
  (s.setBlock (s.block.addFault ⟨code, a⟩)).respond .busError

/-- A mathematical integer reduced mod 2^W and written into a W-bit field (R14). -/
def wrapW (c : Config) (x : Int) : Word := BitVec.ofInt 32 (x % (2 : Int) ^ c.cntWidth)

/-- CTRL as the host reads it (R27, R191): zext_32({STOP_EN, START_EN}). -/
def Block.ctrlWord (b : Block) : Word :=
  (BitVec.ofBool b.stopEn ++ BitVec.ofBool b.startEn).setWidth 32

/-- STATUS as the host reads it (R28, R194): zext_32({MEAS, STOP_PEND, START_PEND}). -/
def Block.statusWord (b : Block) : Word :=
  (BitVec.ofBool b.meas ++ BitVec.ofBool b.stopPend ++ BitVec.ofBool b.startPend).setWidth 32

/-- The 32-bit value of a register as the host reads it (R51, little-endian lanes R52). -/
def Block.readReg (r : Reg) (b : Block) : Word :=
  match r with
  | .ctrl => b.ctrlWord
  | .status => b.statusWord
  | .cnt => b.cnt
  | .startTick => b.startTick
  | .interval => b.interval
  | .colbufLo => b.col[3] ++ b.col[2] ++ b.col[1] ++ b.col[0]
  | .colbufHi => b.col[7] ++ b.col[6] ++ b.col[5] ++ b.col[4]

/-- COL[k], zero-extended (R199). -/
def Block.readCol (k : BitVec 3) (b : Block) : Word :=
  (b.col[k.toNat]'(k.isLt)).setWidth 32

/-- A 32-bit read of a register: the result goes to the host and the block is unchanged (R56,
R190). -/
def State.busRead (r : Reg) (s : State) : State := s.respond (.result (s.block.readReg r))

/-- The next word of the trace and the state in which its operation is taken (R88). -/
def State.nextWord (s : State) : Option (TraceWord × State) :=
  match s.trace with
  | [] => none
  | w :: ws => some (w, s.setTrace ws)

/-- The reset event of the platform on a running machine (R260): every element of the block at the
value of R35, the levels at two fresh draws. No operation word names it, so no step is it
(notes/assumptions/13.md). -/
def State.resetEvent (lvlA0 lvlB0 : Bool) (s : State) : State :=
  s.setBlock (Block.reset lvlA0 lvlB0)

end Sys2Proof.Machine
end

