-- ==== Sys2Proof/Machine/Counter.lean ====
section
/-! DEFINITION. The counter source (40_counter.md): TICK. -/

namespace Sys2Proof.Machine

/-- TICK (R100): CNT <- (CNT + 1) mod 2^W. Always enabled; no flag. -/
def execTick (s : State) : Host.Outcome State Fault Refusal :=
  .next (s.setBlock (s.block.setCnt (wrapW s.cfg ((s.block.cnt.toNat : Int) + 1))))

end Sys2Proof.Machine
end

