-- ==== Sys2Proof/Machine/RateConverter.lean ====
section
/-! DEFINITION. The rate converter NORM (42_rate_converter.md): exact non-negative rationals, the
IEEE 754 rounding of 00_scope.md R14, and the function itself in both modes. -/

namespace Sys2Proof.Machine

/-- The non-negative rational num / den, not reduced. -/
structure Frac where
  num : Nat
  den : Nat
  deriving DecidableEq, Repr

/-- floor(q) (R14). -/
def Frac.floor (q : Frac) : Nat := q.num / q.den

/-- The integer n as a rational. -/
def Frac.ofNat (n : Nat) : Frac := ⟨n, 1⟩

/-- q * n -/
def Frac.scale (q : Frac) (n : Nat) : Frac := ⟨q.num * n, q.den⟩

/-- p / q -/
def Frac.div (p q : Frac) : Frac := ⟨p.num * q.den, p.den * q.num⟩

/-- q / 2^e -/
def Frac.divPow2 (q : Frac) (e : Int) : Frac :=
  match e with
  | .ofNat k => ⟨q.num, q.den * 2 ^ k⟩
  | .negSucc k => ⟨q.num * 2 ^ (k + 1), q.den⟩

/-- The greatest e with 2^e <= q, for q > 0. The quotient of the leading powers of two is at most
one too large. -/
def Frac.exponent (q : Frac) : Int :=
  let e : Int := (q.num.log2 : Int) - (q.den.log2 : Int)
  let r := q.divPow2 e
  if r.den ≤ r.num then e else e - 1

/-- The integer nearest to q, ties to even. -/
def Frac.nearest (q : Frac) : Nat :=
  let m := q.num / q.den
  let twice := 2 * (q.num % q.den)
  if twice < q.den then m
  else if q.den < twice then m + 1
  else if m % 2 = 0 then m
  else m + 1

/-- The value m * 2^e nearest to q with m below 2^prec (or 2^prec itself after rounding up) and
e at least eMin: round to nearest, ties to even, with prec significant bits and gradual underflow.
The exponent has no upper bound (notes/assumptions/12.md). -/
def roundBinary (prec : Nat) (eMin : Int) (q : Frac) : Frac :=
  if q.num = 0 then Frac.ofNat 0
  else
    let e := max (q.exponent - ((prec : Int) - 1)) eMin
    (Frac.ofNat (q.divPow2 e).nearest).divPow2 (-e)

/-- RNE32(q) (R14): the IEEE 754 binary32 value nearest to q, ties to even. Its significand has 24
bits and its least exponent is -149 (from general knowledge, as R14 and GK1 mark it). -/
def rne32 (q : Frac) : Frac := roundBinary 24 (-149) q

/-- The same for binary64, which R143 compares EXACT with: 53 bits, least exponent -1074. -/
def rne64 (q : Frac) : Frac := roundBinary 53 (-1074) q

/-- NORM(I) (R140): I / F_CNT, exact (R141) or in binary32 (R142). -/
def normalise (c : Config) (i : Word) : Frac :=
  match c.numMode with
  | .exact => (Frac.ofNat i.toNat).div (Frac.ofNat c.fCnt)
  | .binary32 => rne32 ((rne32 (Frac.ofNat i.toNat)).div (rne32 (Frac.ofNat c.fCnt)))

end Sys2Proof.Machine
end

