-- ==== Sys2Proof/Machine/DigitEncoder.lean ====
section
/-! DEFINITION. The digit encoder ENC (43_digit_encoder.md): the four digits of a value in both
modes (R162, R163), the pattern function PAT (R169), and the column buffer (R173). -/

namespace Sys2Proof.Machine

/-- The four slot values (R162). -/
structure Digits where
  first : Nat
  second : Nat
  third : Nat
  fourth : Nat
  deriving DecidableEq, Repr

/-- The rounding of a product: none under EXACT (R162), RNE32 under BINARY32 (R163). -/
def roundProduct (m : NumMode) (q : Frac) : Frac :=
  match m with
  | .exact => q
  | .binary32 => rne32 q

/-- The digits of a value, by the literal three-stage formula (R162, R163). The product is rounded
first and floor and mod act on the exact result. -/
def digits (m : NumMode) (v : Frac) : Digits where
  first := v.floor
  second := (roundProduct m (v.scale 10)).floor % 10
  third := ((roundProduct m (v.scale 100)).floor % 100) % 10
  fourth := (((roundProduct m (v.scale 1000)).floor % 1000) % 100) % 10

/-- The digit of a slot (R167): first is slot 0, fourth slot 3. -/
def Digits.slot (d : Digits) (s : Fin 4) : Nat :=
  match s with
  | 0 => d.first
  | 1 => d.second
  | 2 => d.third
  | 3 => d.fourth

/-- A slot whose glyph is shifted into the high nibble: second and fourth, slots 1 and 3 (R168). -/
def shiftedSlot (s : Fin 4) : Bool :=
  match s with
  | 0 => false
  | 1 => true
  | 2 => false
  | 3 => true

/-- PAT(d, s) (R169): nothing for an out-of-range digit (R171), an exempt pair as it stands, else
shifted by four in slots 1 and 3. -/
def pat (glyph : Vector Glyph 10) (d : Nat) (s : Fin 4) : Byte × Byte :=
  if h : d < 10 then
    if glyph[d].exempt then (glyph[d].g0, glyph[d].g1)
    else if shiftedSlot s then (glyph[d].g0 <<< 4, glyph[d].g1 <<< 4)
    else (glyph[d].g0, glyph[d].g1)
  else (0x00#8, 0x00#8)

/-- The patterns of slot s ORed into COL[2s] and COL[2s+1] (R167, R170). -/
def writeSlot (buf : Vector Byte 8) (s : Fin 4) (p : Byte × Byte) : Vector Byte 8 :=
  let lo := buf.set (2 * s.val) (buf[2 * s.val] ||| p.1)
  lo.set (2 * s.val + 1) (lo[2 * s.val + 1] ||| p.2)

/-- The cleared buffer (R161). -/
def clearedCol : Vector Byte 8 := Vector.replicate 8 0x00#8

/-- The buffer of four digits: cleared, then each slot written in turn (R173). -/
def columnsOf (glyph : Vector Glyph 10) (d : Digits) : Vector Byte 8 :=
  let c0 := writeSlot clearedCol 0 (pat glyph d.first 0)
  let c1 := writeSlot c0 1 (pat glyph d.second 1)
  let c2 := writeSlot c1 2 (pat glyph d.third 2)
  writeSlot c2 3 (pat glyph d.fourth 3)

/-- ENC(value) (R160, R173). It reads the value and the parameters, never the old buffer (R172). -/
def enc (c : Config) (v : Frac) : Vector Byte 8 := columnsOf c.glyph (digits c.numMode v)

end Sys2Proof.Machine
end

