-- ==== Sys2Proof/Machine/Flags.lean ====
section
/-! DEFINITION. The flags of the block (10_state.md R33): the edge detectors (41_edge_capture.md
R111), what a level event leaves in a pending flag (R112, R113), and when a service is enabled
(R118). The block has no arithmetic condition codes. -/

namespace Sys2Proof.Machine

/-- A falling edge: the recorded level is 1 and the new one 0 (R111). The new level is tested first,
so a run that drives the pin high evaluates although the recorded level is a draw. -/
def fallingEdge (recorded new : Bool) : Bool := !new && recorded

/-- A rising edge: the recorded level is 0 and the new one 1 (R111). -/
def risingEdge (recorded new : Bool) : Bool := new && !recorded

/-- START_PEND after a level event on PIN_A (R112): set by an enabled falling edge, else kept. -/
def Block.startPendAfter (v : Bool) (b : Block) : Bool :=
  if b.startEn && fallingEdge b.lvlA v then true else b.startPend

/-- STOP_PEND after a level event on PIN_B (R113): set by an enabled rising edge, else kept. -/
def Block.stopPendAfter (v : Bool) (b : Block) : Bool :=
  if b.stopEn && risingEdge b.lvlB v then true else b.stopPend

/-- The order condition of SVC_START (R118): under STOP_FIRST it needs STOP_PEND = 0. -/
def State.startOrderOk (s : State) : Bool :=
  match s.cfg.svcOrder with
  | .any => true
  | .startFirst => true
  | .stopFirst => !s.block.stopPend

/-- The order condition of SVC_STOP (R118): under START_FIRST it needs START_PEND = 0. -/
def State.stopOrderOk (s : State) : Bool :=
  match s.cfg.svcOrder with
  | .any => true
  | .startFirst => !s.block.startPend
  | .stopFirst => true

/-- enabled(SVC_START) (R116, R118): not gated by CTRL. -/
def State.startEnabled (s : State) : Bool := s.block.startPend && s.startOrderOk

/-- enabled(SVC_STOP) (R117, R118): not gated by CTRL. -/
def State.stopEnabled (s : State) : Bool := s.block.stopPend && s.stopOrderOk

end Sys2Proof.Machine
end

