-- ==== Sys2Proof/Machine/EdgeCapture.lean ====
section
/-! DEFINITION. The edge capture (41_edge_capture.md): the level events PIN_A and PIN_B and the
service steps SVC_START and SVC_STOP. -/

namespace Sys2Proof.Machine

/-- PIN_A(v) (R112): an enabled falling edge sets START_PEND; LVL_A <- v. -/
def execPinA (v : Bool) (s : State) : Host.Outcome State Fault Refusal :=
  .next (s.setBlock ((s.block.setStartPend (s.block.startPendAfter v)).setLvlA v))

/-- PIN_B(v) (R113): an enabled rising edge sets STOP_PEND; LVL_B <- v. -/
def execPinB (v : Bool) (s : State) : Host.Outcome State Fault Refusal :=
  .next (s.setBlock ((s.block.setStopPend (s.block.stopPendAfter v)).setLvlB v))

/-- The writes of SVC_START (R116), all from the state before the step (R15). -/
def Block.captureStart (b : Block) : Block :=
  ((b.setStartTick b.cnt).setStartPend false).setMeas true

/-- SVC_START (R116). Where it is not enabled there is no step (R225). -/
def execSvcStart (s : State) : Host.Outcome State Fault Refusal :=
  if s.startEnabled then .next (s.setBlock s.block.captureStart)
  else .fault .startNotEnabled

/-- I = (CNT - START_TICK) mod 2^W (R121). -/
def State.measured (s : State) : Word :=
  wrapW s.cfg ((s.block.cnt.toNat : Int) - (s.block.startTick.toNat : Int))

/-- The writes of SVC_STOP (R117) for the interval i and the buffer c. -/
def Block.latchStop (i : Word) (c : Vector Byte 8) (b : Block) : Block :=
  (((b.setCol c).setInterval i).setStopPend false).setMeas false

/-- SVC_STOP (R117): measure, convert and encode in one atomic step (R60). Where it is not enabled
there is no step (R225). -/
def execSvcStop (s : State) : Host.Outcome State Fault Refusal :=
  if s.stopEnabled then
    .next (s.setBlock (s.block.latchStop s.measured (enc s.cfg (normalise s.cfg s.measured))))
  else .fault .stopNotEnabled

end Sys2Proof.Machine
end

