-- ==== Sys2Proof/Machine/HostInterface.lean ====
section
/-! DEFINITION. The host's bus operations (44_host_interface.md): the reads, the one write, and
BUS_FAULT. Each is one atomic step, always enabled (R190). -/

namespace Sys2Proof.Machine

/-- RD_CTRL (R191). -/
def execRdCtrl (s : State) : Host.Outcome State Fault Refusal := .next (s.busRead .ctrl)

/-- RD_STATUS (R194): it clears nothing. -/
def execRdStatus (s : State) : Host.Outcome State Fault Refusal := .next (s.busRead .status)

/-- RD_CNT (R193). -/
def execRdCnt (s : State) : Host.Outcome State Fault Refusal := .next (s.busRead .cnt)

/-- RD_START_TICK (R195). -/
def execRdStartTick (s : State) : Host.Outcome State Fault Refusal := .next (s.busRead .startTick)

/-- RD_INTERVAL (R196). -/
def execRdInterval (s : State) : Host.Outcome State Fault Refusal := .next (s.busRead .interval)

/-- RD_COLBUF_LO (R197). -/
def execRdColbufLo (s : State) : Host.Outcome State Fault Refusal := .next (s.busRead .colbufLo)

/-- RD_COLBUF_HI (R198). -/
def execRdColbufHi (s : State) : Host.Outcome State Fault Refusal := .next (s.busRead .colbufHi)

/-- RD_COLB (R199): R <- zext_32(COL[k]). -/
def execRdColb (k : BitVec 3) (s : State) : Host.Outcome State Fault Refusal :=
  .next (s.respond (.result (s.block.readCol k)))

/-- WR_CTRL(D) (R192): START_EN <- D[0], STOP_EN <- D[1]; D[31:2] is discarded, and the pending flags
stay. -/
def execWrCtrl (d : Word) (s : State) : Host.Outcome State Fault Refusal :=
  .next ((s.setBlock (s.block.setCtrl (d.getLsbD 0) (d.getLsbD 1))).respond .noResult)

/-- BUS_FAULT (R200): raise the first applicable code of R223. A legal access is no BUS_FAULT
(notes/assumptions/11.md). -/
def execBusFault (a : Access) (s : State) : Host.Outcome State Fault Refusal :=
  match a.faultCode with
  | some code => .next (s.raiseFault code a)
  | none => .refused .notABusFault

end Sys2Proof.Machine
end

