-- ==== Sys2Proof/Machine/Dispatch.lean ====
section
/-! DEFINITION. The one dispatch: one arm per constructor of Instr, each a direct call of its
meaning. -/

namespace Sys2Proof.Machine

def exec (i : Instr) (s : State) : Host.Outcome State Fault Refusal :=
  match i with
  | .tick => Sys2Proof.Machine.execTick s
  | .pinA lvl => Sys2Proof.Machine.execPinA lvl s
  | .pinB lvl => Sys2Proof.Machine.execPinB lvl s
  | .svcStart => Sys2Proof.Machine.execSvcStart s
  | .svcStop => Sys2Proof.Machine.execSvcStop s
  | .rdCtrl => Sys2Proof.Machine.execRdCtrl s
  | .wrCtrl d => Sys2Proof.Machine.execWrCtrl d s
  | .rdStatus => Sys2Proof.Machine.execRdStatus s
  | .rdCnt => Sys2Proof.Machine.execRdCnt s
  | .rdStartTick => Sys2Proof.Machine.execRdStartTick s
  | .rdInterval => Sys2Proof.Machine.execRdInterval s
  | .rdColbufLo => Sys2Proof.Machine.execRdColbufLo s
  | .rdColbufHi => Sys2Proof.Machine.execRdColbufHi s
  | .rdColb k => Sys2Proof.Machine.execRdColb k s
  | .busFault a => Sys2Proof.Machine.execBusFault a s

end Sys2Proof.Machine
end

