-- ==== Sys2Proof/Machine/Step.lean ====
section
/-! DEFINITION. One step of the machine: the next word of the trace is decoded and its operation
taken (30_encoding.md R88). -/

namespace Sys2Proof.Machine

/-- The word w taken in the state s: its operation, or a refusal for a reserved word (R84, R88). -/
def runWord (w : TraceWord) (s : State) : Host.Outcome State Fault Refusal :=
  match decode w.opw w.d with
  | .op i => exec i s
  | .refuse r => .refused (.reservedWord r)

/-- One step: the trace's next word is removed from the trace and taken. An empty trace names no
operation. -/
def step (s : State) : Host.Outcome State Fault Refusal :=
  match s.nextWord with
  | some (w, s') => runWord w s'
  | none => .refused .traceEnded

/-- s with the instruction of the given bits as the next word of its trace (notes/assumptions/2.md). -/
def State.withFetchWord (s : State) (nbits w : Nat) : State :=
  s.setTrace (traceWordOfBits nbits w :: s.trace)

end Sys2Proof.Machine
end

