-- ==== Sys2Proof/Machine/Trace.lean ====
section
/-! DEFINITION. Traces and how they are written (30_encoding.md R85, R86, R88): running a list of
operations, the assembler's lines, and the pseudo-instructions. -/

namespace Sys2Proof.Machine

/-- The words of a list taken in order from a state (R88): the run stops at the first word that is
not enabled or refused. -/
def runWords (ws : List TraceWord) (s : State) : Host.Outcome State Fault Refusal :=
  match ws with
  | [] => .next s
  | w :: rest =>
    match runWord w s with
    | .next s' => runWords rest s'
    | .fault r => .fault r
    | .refused r => .refused r

/-- The same for operations already decoded: one interleaving of the four agents (R58). -/
def runOps (is : List Instr) (s : State) : Host.Outcome State Fault Refusal :=
  match is with
  | [] => .next s
  | i :: rest =>
    match exec i s with
    | .next s' => runOps rest s'
    | .fault r => .fault r
    | .refused r => .refused r

/-- One line of assembly (R85). A register name stands for its offset, Reg.offset. -/
inductive AsmLine where
  | tick
  | pinA (lvl : Bool)
  | pinB (lvl : Bool)
  | svcStart
  | svcStop
  | rdW (off : Byte)
  | wrW (off : Byte) (d : Word)
  | rdB (off : Byte)
  | wrB (off : Byte) (d : Word)
  | rdH (off : Byte)
  | wrH (off : Byte) (d : Word)
  deriving DecidableEq, Repr

/-- LVL as a number added to a word (R85). -/
def lvlWord (lvl : Bool) : OpWord := (BitVec.ofBool lvl).setWidth 16

/-- The word a line assembles to (R85). -/
def assemble (l : AsmLine) : TraceWord :=
  match l with
  | .tick => ⟨0x4000#16, 0#32⟩
  | .pinA lvl => ⟨0x4010#16 + lvlWord lvl, 0#32⟩
  | .pinB lvl => ⟨0x4020#16 + lvlWord lvl, 0#32⟩
  | .svcStart => ⟨0x8001#16, 0#32⟩
  | .svcStop => ⟨0x8002#16, 0#32⟩
  | .rdW off => ⟨0x3000#16 + off.setWidth 16, 0#32⟩
  | .wrW off d => ⟨0x1000#16 + off.setWidth 16, d⟩
  | .rdB off => ⟨0x2000#16 + off.setWidth 16, 0#32⟩
  | .wrB off d => ⟨0x0000#16 + off.setWidth 16, d⟩
  | .rdH off => ⟨0x2800#16 + off.setWidth 16, 0#32⟩
  | .wrH off d => ⟨0x0800#16 + off.setWidth 16, d⟩

/-- tick N (R86): N ticks. -/
def ticks (n : Nat) : List TraceWord := List.replicate n (assemble .tick)

/-- fall.a (R86): exactly one falling edge on PIN_A. -/
def fallA : List TraceWord := [assemble (.pinA true), assemble (.pinA false)]

/-- rise.b (R86): exactly one rising edge on PIN_B. -/
def riseB : List TraceWord := [assemble (.pinB false), assemble (.pinB true)]

/-- enable (R86, R264): both edge sources enabled. -/
def enable : List TraceWord := [assemble (.wrW (Reg.offset .ctrl) 0x3#32)]

/-- rd.col (R86): eight separate reads, column order 1..8. -/
def rdCol : List TraceWord :=
  (List.range 8).map fun k => assemble (.rdB (0x20#8 + BitVec.ofNat 8 k))

/-- measure N (R86): one interval of N ticks, serviced with no latency. -/
def measureTicks (n : Nat) : List TraceWord :=
  fallA ++ [assemble .svcStart] ++ ticks n ++ riseB ++ [assemble .svcStop]

end Sys2Proof.Machine
end

