-- ==== Sys2Proof/Safety.lean ====
section
/-! DEFINITION. What claims are stated in terms of: the invariant of the machine, fault-free states
(60_exceptions.md R222), reserved words (30_encoding.md R82), infinite executions and weak fairness
(41_edge_capture.md R119, 70_reset_and_hazards.md R278). -/

namespace Sys2Proof.Machine

/-- A W-bit register holds a W-bit value (R22). -/
abbrev FitsW (c : Config) (v : Word) : Prop := v.toNat < 2 ^ c.cntWidth

/-- A record names the code that R223 gives its access. -/
abbrev FaultRecord.Consistent (r : FaultRecord) : Prop := r.access.faultCode = some r.code

/-- The invariant of the machine: legal parameters (R7 to R10), the three W-bit registers within
their width (R22), and every recorded fault the one its access raises (R221, R223). -/
abbrev State.Inv (s : State) : Prop :=
  s.cfg.Legal ∧ FitsW s.cfg s.block.cnt ∧ FitsW s.cfg s.block.startTick ∧
    FitsW s.cfg s.block.interval ∧ ∀ r ∈ s.block.faults, r.Consistent

/-- "no fault recorded" (R222), the premise of a claim about a run without faults. -/
abbrev State.NoFault (s : State) : Prop := s.block.faults = []

/-- enabled(SVC_START), in the words of R116 and R118. -/
abbrev State.StartEnabled (s : State) : Prop :=
  s.block.startPend = true ∧ (s.cfg.svcOrder = .stopFirst → s.block.stopPend = false)

/-- enabled(SVC_STOP), in the words of R117 and R118. -/
abbrev State.StopEnabled (s : State) : Prop :=
  s.block.stopPend = true ∧ (s.cfg.svcOrder = .startFirst → s.block.startPend = false)

/-- Bits hi down to lo of a word, as a number (R13). -/
def bits (w : OpWord) (hi lo : Nat) : Nat := w.toNat / 2 ^ lo % 2 ^ (hi - lo + 1)

/-- The reserved words (R82), by their bit fields. -/
abbrev ReservedWord (w : OpWord) : Prop :=
  bits w 15 14 = 3 ∨
  (bits w 15 14 = 0 ∧ (bits w 12 11 = 3 ∨ bits w 10 8 ≠ 0)) ∨
  (bits w 15 14 = 1 ∧ (bits w 13 8 ≠ 0 ∨ bits w 3 1 ≠ 0 ∨ 3 ≤ bits w 7 4 ∨
    (bits w 7 4 = 0 ∧ bits w 0 0 = 1))) ∨
  (bits w 15 14 = 2 ∧ (bits w 13 8 ≠ 0 ∨ (bits w 7 0 ≠ 0x01 ∧ bits w 7 0 ≠ 0x02)))

/-- The reason a reserved word is refused with, by its CLASS (R81, R84). -/
def refuseReason (w : OpWord) : RefuseReason :=
  if bits w 15 14 = 0 then .reservedBus
  else if bits w 15 14 = 1 then .reservedEvent
  else if bits w 15 14 = 2 then .reservedService
  else .reservedClass

/-- The legal accesses, in the words of R53 and R54: 32-bit reads of a register, 8-bit reads of a
column byte, and the 32-bit write of CTRL. -/
abbrev LegalAccess (a : Access) : Prop :=
  (a.dir = .read ∧ a.size = .b32 ∧ a.off.toNat ∈ [0x00, 0x04, 0x08, 0x0C, 0x10, 0x20, 0x24]) ∨
  (a.dir = .read ∧ a.size = .b8 ∧ 0x20 ≤ a.off.toNat ∧ a.off.toNat ≤ 0x27) ∨
  (a.dir ≠ .read ∧ a.size = .b32 ∧ a.off.toNat = 0x00)

/-- The exact rational a fraction stands for (R141). -/
def Frac.toRat (q : Frac) : ℚ := (q.num : ℚ) / (q.den : ℚ)

/-- The 32-bit read of a register (R77). -/
def readOf (r : Reg) : Instr :=
  match r with
  | .ctrl => .rdCtrl
  | .status => .rdStatus
  | .cnt => .rdCnt
  | .startTick => .rdStartTick
  | .interval => .rdInterval
  | .colbufLo => .rdColbufLo
  | .colbufHi => .rdColbufHi

/-- A line of assembly spells an operation: its word, with its operand, decodes to it (R85). -/
abbrev Assembles (l : AsmLine) (i : Instr) : Prop :=
  decode (assemble l).opw (assemble l).d = .op i

/-- A level event on PIN_A (R112). -/
def isPinA (i : Instr) : Bool := decide (i = .pinA true ∨ i = .pinA false)

/-- A level event on PIN_B (R113). -/
def isPinB (i : Instr) : Bool := decide (i = .pinB true ∨ i = .pinB false)

/-- The operations that read a register or a column byte (R191, R193 to R199). -/
def isRead (i : Instr) : Bool :=
  match i with
  | .rdCtrl => true
  | .rdStatus => true
  | .rdCnt => true
  | .rdStartTick => true
  | .rdInterval => true
  | .rdColbufLo => true
  | .rdColbufHi => true
  | .rdColb _ => true
  | .tick => false
  | .pinA _ => false
  | .pinB _ => false
  | .svcStart => false
  | .svcStop => false
  | .wrCtrl _ => false
  | .busFault _ => false

/-- BUS_FAULT (R200). -/
def isBusFault (i : Instr) : Bool :=
  match i with
  | .busFault _ => true
  | .tick => false
  | .pinA _ => false
  | .pinB _ => false
  | .svcStart => false
  | .svcStop => false
  | .rdCtrl => false
  | .wrCtrl _ => false
  | .rdStatus => false
  | .rdCnt => false
  | .rdStartTick => false
  | .rdInterval => false
  | .rdColbufLo => false
  | .rdColbufHi => false
  | .rdColb _ => false

/-- WR_CTRL (R192). -/
def isWrCtrl (i : Instr) : Bool :=
  match i with
  | .wrCtrl _ => true
  | .tick => false
  | .pinA _ => false
  | .pinB _ => false
  | .svcStart => false
  | .svcStop => false
  | .rdCtrl => false
  | .rdStatus => false
  | .rdCnt => false
  | .rdStartTick => false
  | .rdInterval => false
  | .rdColbufLo => false
  | .rdColbufHi => false
  | .rdColb _ => false
  | .busFault _ => false

/-- The pattern byte of a digit in a slot as a number, from one of its two glyph patterns g (R168,
R169): multiplied by 16 in slots 1 and 3 unless the digit is exempt, 0 for an out-of-range digit. -/
def patByte (glyph : Vector Glyph 10) (g : Glyph → Byte) (d slot : Nat) : Nat :=
  if h : d ≤ 9 then
    if slot % 2 = 1 ∧ (glyph[d]).exempt = false then (g glyph[d]).toNat * 16 % 256
    else (g glyph[d]).toNat
  else 0

/-- The buffer holds, in slot s, the patterns of the digit d s (R167, R169). -/
def ShowsDigits (glyph : Vector Glyph 10) (d : Fin 4 → Nat) (buf : Vector Byte 8) : Prop :=
  ∀ s : Fin 4, buf[2 * s.val].toNat = patByte glyph Glyph.g0 (d s) s.val ∧
    buf[2 * s.val + 1].toNat = patByte glyph Glyph.g1 (d s) s.val

/-- An infinite execution (R58): in each state the operation of that moment is taken. -/
def IsExecution (st : Nat → State) (op : Nat → Instr) : Prop :=
  ∀ n, exec (op n) (st n) = .next (st (n + 1))

/-- Weak fairness of the two services (R119, R278): one that stays enabled is eventually taken. -/
def WeaklyFair (st : Nat → State) (op : Nat → Instr) : Prop :=
  (∀ n, (∀ m, n ≤ m → (st m).StartEnabled) → ∃ m, n ≤ m ∧ op m = .svcStart) ∧
  (∀ n, (∀ m, n ≤ m → (st m).StopEnabled) → ∃ m, n ≤ m ∧ op m = .svcStop)

/-- The counter eventually ticks again (R278). -/
def ClockTicks (op : Nat → Instr) : Prop := ∀ n, ∃ m, n ≤ m ∧ op m = .tick

end Sys2Proof.Machine
end

