-- ==== Sys2Proof/Certificates/Slice0/Obligations.lean ====
section
/-! DEFINITION. The statements for the provers, from the numbered rules of spec/. Each docstring
names the rule; where a clause rests on a choice of the model it names the entry of the assumption
log. -/

open Sys2Proof Sys2Proof.Machine

/-! ## Encoding (30_encoding.md) -/

/-- R76 to R81: decoding the word of a well-formed operation gives it back, with every operand. -/
def Obligations.DecodeOfEncode : Prop :=
  ∀ i : Instr, i.WellFormed → decode (encode i).opw (encode i).d = .op i

/-- R75 to R81, the other direction: a word that decodes to an operation is the word of that
operation, which is well-formed, and where the word is a write the encoder's operand is D. That the
encoder writes the operand 0 beside a word that is no write is the model's choice (log 7): R75 gives
such a word no operand. -/
def Obligations.EncodeOfDecode : Prop :=
  ∀ (w : OpWord) (d : Word) (i : Instr), decode w d = .op i →
    i.WellFormed ∧ (encode i).opw = w ∧
      (encode i).d = if bits w 15 14 = 0 ∧ bits w 13 13 = 0 then d else 0#32

/-- R82: exactly the reserved words spell no operation, each refused with the reason of its CLASS
(R84). -/
def Obligations.ReservedWordsAreRefused : Prop :=
  ∀ (w : OpWord) (d : Word) (r : RefuseReason),
    decode w d = .refuse r ↔ ReservedWord w ∧ r = refuseReason w

/-- R53, R80 and the derived sentence of R221: every well-formed bus access has one outcome. Either it
is legal and its word is the word of a read or of WR_CTRL, or its word is BUS_FAULT, and taking it
raises the code of R223. -/
def Obligations.BusAccessesHaveOneOutcome : Prop :=
  ∀ (a : Access) (s : State), ∃ i t,
    decode (encodeAccess a) (encodeData a.dir) = .op i ∧ i.agent = .host ∧ exec i s = .next t ∧
    ((LegalAccess a ∧ a.faultCode = none ∧ (isRead i = true ∨ isWrCtrl i = true) ∧
        t.block.faults = s.block.faults) ∨
      ∃ code, ¬ LegalAccess a ∧ a.faultCode = some code ∧ i = .busFault a ∧
        t.block.faults = s.block.faults ++ [⟨code, a⟩])

/-- R77 to R79 and the decode vectors V114 to V124: a few words written out from the tables. -/
def Obligations.SpecWordsDecode : Prop :=
  ∀ d : Word,
    decode 0x4000#16 d = .op .tick ∧ decode 0x4001#16 d = .refuse .reservedEvent ∧
    decode 0x4011#16 d = .op (.pinA true) ∧ decode 0x4020#16 d = .op (.pinB false) ∧
    decode 0x4030#16 d = .refuse .reservedEvent ∧ decode 0x4110#16 d = .refuse .reservedEvent ∧
    decode 0x8001#16 d = .op .svcStart ∧ decode 0x8002#16 d = .op .svcStop ∧
    decode 0x8003#16 d = .refuse .reservedService ∧ decode 0xC000#16 d = .refuse .reservedClass ∧
    decode 0x3008#16 d = .op .rdCnt ∧ decode 0x1000#16 d = .op (.wrCtrl d) ∧
    decode 0x2027#16 d = .op (.rdColb 7#3) ∧
    decode 0x1008#16 d = .op (.busFault ⟨.write d, .b32, 0x08#8⟩) ∧
    decode 0x3808#16 d = .refuse .reservedBus ∧ decode 0x3108#16 d = .refuse .reservedBus

/-- R85, R80: every line of the table spells its operation. tick, pin.a, pin.b, svc.start and
svc.stop spell theirs; rd.w of a register the read of it, wr.w of CTRL the write of D, rd.b of COL+k
the read of COL[k]; a bus line whose access is not legal (R53) spells BUS_FAULT of exactly that
access, with the DIR, SIZE, OFFSET and D of the line; and wr.b, rd.h and wr.h are never legal. -/
def Obligations.AssemblyLinesMeanTheirOperations : Prop :=
  Assembles .tick .tick ∧ Assembles .svcStart .svcStart ∧ Assembles .svcStop .svcStop ∧
  (∀ lvl : Bool, Assembles (.pinA lvl) (.pinA lvl) ∧ Assembles (.pinB lvl) (.pinB lvl)) ∧
  (∀ r : Reg, Assembles (.rdW r.offset) (readOf r)) ∧
  (∀ d : Word, Assembles (.wrW (Reg.offset .ctrl) d) (.wrCtrl d)) ∧
  (∀ k : BitVec 3, Assembles (.rdB (0x20#8 + k.setWidth 8)) (.rdColb k)) ∧
  ∀ (off : Byte) (d : Word),
    (¬ LegalAccess ⟨.read, .b32, off⟩ →
      Assembles (.rdW off) (.busFault ⟨.read, .b32, off⟩)) ∧
    (¬ LegalAccess ⟨.write d, .b32, off⟩ →
      Assembles (.wrW off d) (.busFault ⟨.write d, .b32, off⟩)) ∧
    (¬ LegalAccess ⟨.read, .b8, off⟩ →
      Assembles (.rdB off) (.busFault ⟨.read, .b8, off⟩)) ∧
    Assembles (.wrB off d) (.busFault ⟨.write d, .b8, off⟩) ∧
    Assembles (.rdH off) (.busFault ⟨.read, .b16, off⟩) ∧
    Assembles (.wrH off d) (.busFault ⟨.write d, .b16, off⟩) ∧
    ¬ LegalAccess ⟨.write d, .b8, off⟩ ∧ ¬ LegalAccess ⟨.read, .b16, off⟩ ∧
    ¬ LegalAccess ⟨.write d, .b16, off⟩

/-! ## The step, traces, reset -/

/-- R88: the next word of the trace is decoded and its operation taken, with the trace moved past
the word; a reserved word refuses the run (R84, log 9); an empty trace names no operation (log 2). -/
def Obligations.StepRunsNextWord : Prop :=
  (∀ (s : State) (w : TraceWord) (ws : List TraceWord) (i : Instr),
    s.trace = w :: ws → decode w.opw w.d = .op i → step s = exec i { s with trace := ws }) ∧
  (∀ (s : State) (w : TraceWord) (ws : List TraceWord) (r : RefuseReason),
    s.trace = w :: ws → decode w.opw w.d = .refuse r → step s = .refused (.reservedWord r)) ∧
  (∀ s : State, s.trace = [] → step s = .refused .traceEnded)

/-- R88: as many steps of the machine as a trace has words take the words in list order, each in
the state the earlier ones left. The trace as a field of the state is the model's (log 1). -/
def Obligations.StepsRunTheTrace : Prop :=
  ∀ (ws rest : List TraceWord) (s : State),
    core.run ws.length (s.setTrace (ws ++ rest)) = runWords ws (s.setTrace rest)

/-- R35: every element after reset, for the reset state (with the draws LVL_A0, LVL_B0) and for the
reset event on a running machine with any two draws (log 5, log 13); and this hardware's parameters
(R7 to R9, R11, and R166 by its formula; held in the state, log 3). -/
def Obligations.ResetValues : Prop :=
  (∀ (s : State) (a b : Bool),
    (s.resetEvent a b).block.cnt = 0 ∧ (s.resetEvent a b).block.startTick = 0 ∧
    (s.resetEvent a b).block.interval = 0 ∧
    (∀ k : Fin 8, (s.resetEvent a b).block.col[k] = 0x00#8) ∧
    (s.resetEvent a b).block.ctrlWord = 0 ∧ (s.resetEvent a b).block.statusWord = 0 ∧
    (s.resetEvent a b).block.lvlA = a ∧ (s.resetEvent a b).block.lvlB = b ∧
    (s.resetEvent a b).block.faults = []) ∧
  State.reset.block = (State.reset.resetEvent Config.lvlA0 Config.lvlB0).block ∧
  State.reset.cfg.cntWidth = 32 ∧ State.reset.cfg.fCnt = 2 ^ 15 ∧
  State.reset.cfg.numMode = .exact ∧ State.reset.cfg.svcOrder = .any ∧
  ∀ d : Fin 10, d.val ≠ 3 →
    (State.reset.cfg.glyph[d]).g0.toNat = d.val + 1 ∧
    (State.reset.cfg.glyph[d]).g1.toNat = (if d.val = 1 then 0 else 15 - d.val) ∧
    (State.reset.cfg.glyph[d]).exempt = false

/-- The invariant holds at reset. -/
def Obligations.ResetMeetsInvariant : Prop := State.reset.Inv

/-- R7, R22, R221: every step keeps the invariant: legal parameters, the three W-bit registers
within their width, every recorded fault the one its access raises. -/
def Obligations.StepKeepsTheInvariant : Prop :=
  ∀ s t : State, s.Inv → step s = .next t → t.Inv

/-! ## Whole-machine rules -/

/-- R22, the column "written by": each element changes only by the operations named there, and the
model's own fields only as their log entries say (3, 6, 1). This is the frame of every operation. -/
def Obligations.OnlyNamedWriters : Prop :=
  ∀ (i : Instr) (s t : State), exec i s = .next t →
    (t.block.cnt ≠ s.block.cnt → i = .tick) ∧
    (t.block.startTick ≠ s.block.startTick → i = .svcStart) ∧
    (t.block.interval ≠ s.block.interval → i = .svcStop) ∧
    (t.block.col ≠ s.block.col → i = .svcStop) ∧
    (t.block.startEn ≠ s.block.startEn → isWrCtrl i = true) ∧
    (t.block.stopEn ≠ s.block.stopEn → isWrCtrl i = true) ∧
    (s.block.startPend = false → t.block.startPend = true → i = .pinA false) ∧
    (s.block.startPend = true → t.block.startPend = false → i = .svcStart) ∧
    (s.block.stopPend = false → t.block.stopPend = true → i = .pinB true) ∧
    (s.block.stopPend = true → t.block.stopPend = false → i = .svcStop) ∧
    (s.block.meas = false → t.block.meas = true → i = .svcStart) ∧
    (s.block.meas = true → t.block.meas = false → i = .svcStop) ∧
    (t.block.lvlA ≠ s.block.lvlA → i = .pinA t.block.lvlA) ∧
    (t.block.lvlB ≠ s.block.lvlB → i = .pinB t.block.lvlB) ∧
    (t.block.faults ≠ s.block.faults → isBusFault i = true) ∧
    t.cfg = s.cfg ∧ t.trace = s.trace ∧ (t.resp ≠ s.resp → i.agent = .host)

/-- R190: no host operation sets, clears or reads a pending flag or MEAS, except RD_STATUS, which
reads them: changing the flags beforehand changes nothing but the flags. -/
def Obligations.HostOperationsIgnoreFlags : Prop :=
  ∀ (i : Instr) (s t : State) (p q m : Bool), i.agent = .host → i ≠ .rdStatus →
    exec i s = .next t →
    exec i { s with block := { s.block with startPend := p, stopPend := q, meas := m } } =
      .next { t with block := { t.block with startPend := p, stopPend := q, meas := m } }

/-- R31, R36: the recorded levels are hidden: no operation but a level event depends on them or
changes them. -/
def Obligations.PinLevelsAreHidden : Prop :=
  ∀ (i : Instr) (s t : State) (a b : Bool), i.agent ≠ .env → exec i s = .next t →
    exec i { s with block := { s.block with lvlA := a, lvlB := b } } =
      .next { t with block := { t.block with lvlA := a, lvlB := b } }

/-- R120: MEAS gates nothing. Whatever MEAS is, the same operations are enabled, and but for
RD_STATUS they leave the same state up to MEAS. -/
def Obligations.MeasGatesNothing : Prop :=
  ∀ (i : Instr) (s t : State) (m : Bool), exec i s = .next t →
    ∃ u, exec i { s with block := { s.block with meas := m } } = .next u ∧
      { u with block := { u.block with meas := false }, resp := none } =
        { t with block := { t.block with meas := false }, resp := none } ∧
      (i ≠ .rdStatus → u.resp = t.resp)

/-- R222: recorded faults stop no agent: with any other list of faults the same operation is taken
with the same effect, and the list only grows at its end. -/
def Obligations.FaultsStopNoAgent : Prop :=
  ∀ (i : Instr) (s t : State) (fs : List FaultRecord), exec i s = .next t →
    ∃ new, t.block.faults = s.block.faults ++ new ∧
      exec i { s with block := { s.block with faults := fs } } =
        .next { t with block := { t.block with faults := fs ++ new } }

/-- R220, R222, R32: along any interleaving the list of faults grows by exactly one record for each
BUS_FAULT taken, at its end, so a run without one from a fault-free state stays fault-free. -/
def Obligations.OneRecordPerBusFault : Prop :=
  ∀ (is : List Instr) (s t : State), runOps is s = .next t →
    ∃ new, t.block.faults = s.block.faults ++ new ∧ new.length = is.countP isBusFault ∧
      (s.NoFault → (∀ i ∈ is, isBusFault i = false) → t.NoFault)

/-! ## Counter (40_counter.md) -/

/-- R100: TICK is always enabled, increments CNT mod 2^W, and changes nothing else. -/
def Obligations.TickIncrementsCounter : Prop :=
  (∀ d, decode 0x4000#16 d = .op .tick) ∧ Instr.tick.agent = .clk ∧
  ∀ s : State, s.cfg.Legal →
    ∃ v : Word, exec .tick s = .next { s with block := { s.block with cnt := v } } ∧
      v.toNat = (s.block.cnt.toNat + 1) % 2 ^ s.cfg.cntWidth ∧
      (s.block.cnt.toNat = 2 ^ s.cfg.cntWidth - 1 → v = 0)

/-- R101 (derived from R100 by the spec): along any interleaving, CNT moves by the number of TICK
steps mod 2^W, whatever the other agents do (R103). -/
def Obligations.CounterCountsTicks : Prop :=
  ∀ (is : List Instr) (s t : State), s.cfg.Legal → FitsW s.cfg s.block.cnt →
    runOps is s = .next t →
    t.block.cnt.toNat = (s.block.cnt.toNat + is.count .tick) % 2 ^ s.cfg.cntWidth

/-- R278, R103: if the counter eventually ticks again, CNT reaches every W-bit value from every
moment on, so a host that polls CNT for a target sees it pass (the busy-wait R201 names). -/
def Obligations.CounterReachesEveryValue : Prop :=
  ∀ (st : Nat → State) (op : Nat → Instr), IsExecution st op → ClockTicks op →
    (st 0).cfg.Legal → FitsW (st 0).cfg (st 0).block.cnt →
    ∀ n v, v < 2 ^ (st 0).cfg.cntWidth → ∃ m, n ≤ m ∧ (st m).block.cnt.toNat = v

/-! ## Edge capture (41_edge_capture.md) -/

/-- R112: PIN_A is always enabled; an enabled falling edge sets START_PEND, no event clears it, and
LVL_A takes the new level. -/
def Obligations.PinASetsStartPending : Prop :=
  ∀ (s : State) (v : Bool),
    (∀ d, decode (BitVec.ofNat 16 (0x4010 + v.toNat)) d = .op (.pinA v)) ∧
    (Instr.pinA v).agent = .env ∧
    ∃ p : Bool, exec (.pinA v) s =
        .next { s with block := { s.block with lvlA := v, startPend := p } } ∧
      (p = true ↔ s.block.startPend = true ∨
        (s.block.lvlA = true ∧ v = false ∧ s.block.startEn = true))

/-- R113: PIN_B is always enabled; an enabled rising edge sets STOP_PEND, no event clears it, and
LVL_B takes the new level. -/
def Obligations.PinBSetsStopPending : Prop :=
  ∀ (s : State) (v : Bool),
    (∀ d, decode (BitVec.ofNat 16 (0x4020 + v.toNat)) d = .op (.pinB v)) ∧
    (Instr.pinB v).agent = .env ∧
    ∃ p : Bool, exec (.pinB v) s =
        .next { s with block := { s.block with lvlB := v, stopPend := p } } ∧
      (p = true ↔ s.block.stopPend = true ∨
        (s.block.lvlB = false ∧ v = true ∧ s.block.stopEn = true))

/-- R114, R86: further edges on a pin whose flag is pending merge: any number of falling edges on
PIN_A and rising edges on PIN_B leave the state that one of each leaves. -/
def Obligations.RepeatedEdgesMerge : Prop :=
  ∀ (s : State) (n : Nat),
    runWords (List.replicate (n + 1) fallA).flatten s = runWords fallA s ∧
    runWords (List.replicate (n + 1) riseB).flatten s = runWords riseB s

/-- R86: fall.a makes exactly one falling edge and rise.b exactly one rising edge, whatever the
recorded levels were; a disabled source's edge is lost (R227). -/
def Obligations.PseudoEdgesAreEdges : Prop :=
  ∀ s : State,
    runWords fallA s = .next { s with block := { s.block with
      lvlA := false, startPend := s.block.startPend || s.block.startEn } } ∧
    runWords riseB s = .next { s with block := { s.block with
      lvlB := true, stopPend := s.block.stopPend || s.block.stopEn } }

/-- R86, R264: enable sets both enables and nothing else of the block; rd.col is eight separate reads
of the column bytes in order, which leave the block and return the last one. -/
def Obligations.EnableAndColumnReads : Prop :=
  ∀ s : State,
    runWords enable s = .next { s with
      block := { s.block with startEn := true, stopEn := true }, resp := some .noResult } ∧
    rdCol.map (fun w => decode w.opw w.d) =
      [0, 1, 2, 3, 4, 5, 6, 7].map (fun k => .op (.rdColb k)) ∧
    (∀ n, n < 8 → runWords (rdCol.take (n + 1)) s = .next { s with
      resp := some (.result (s.block.readCol (BitVec.ofNat 3 n))) })

/-- R265 (derived by the spec): a run in which PIN_A's first level event drives it high and PIN_B's
first drives it low does not depend on the recorded levels at its start, whatever operations of any
agent stand before, between and after. One full high-then-low cycle of PIN_A and low-then-high cycle
of PIN_B, in either order or interleaved, is such a run: the second clause is R265's own case, with
any operations of the other agents between any two of the four levels. -/
def Obligations.DrawsAreForgotten : Prop :=
  (∀ (s : State) (a b : Bool) (is : List Instr),
    is.find? isPinA = some (.pinA true) → is.find? isPinB = some (.pinB false) →
    runOps is { s with block := { s.block with lvlA := a, lvlB := b } } = runOps is s) ∧
  ∀ (s : State) (a b : Bool) (is ks js : List Instr), (∀ i ∈ is ++ ks ++ js, i.agent ≠ .env) →
    ∀ run ∈
      [[.pinA true] ++ is ++ [.pinA false] ++ ks ++ [.pinB false] ++ js ++ [.pinB true],
       [.pinB false] ++ is ++ [.pinB true] ++ ks ++ [.pinA true] ++ js ++ [.pinA false]],
      runOps run { s with block := { s.block with lvlA := a, lvlB := b } } = runOps run s

/-- R116: SVC_START where it is enabled captures CNT, clears exactly its flag and sets MEAS; where
it is not enabled there is no step. -/
def Obligations.StartServiceCapturesCounter : Prop :=
  (∀ d, decode 0x8001#16 d = .op .svcStart) ∧ Instr.svcStart.agent = .svc ∧
  ∀ s : State,
    (s.StartEnabled → exec .svcStart s = .next { s with block := { s.block with
      startTick := s.block.cnt, startPend := false, meas := true } }) ∧
    (¬ s.StartEnabled → ∀ t, exec .svcStart s ≠ .next t)

/-- R117: SVC_STOP where it is enabled writes INTERVAL with the difference mod 2^W (R121) and COL
with ENC(NORM(I)), clears exactly its flag and MEAS, in one step; where it is not enabled there is no
step. -/
def Obligations.StopServiceMeasuresAndEncodes : Prop :=
  (∀ d, decode 0x8002#16 d = .op .svcStop) ∧ Instr.svcStop.agent = .svc ∧
  ∀ s : State, s.cfg.Legal →
    (s.StopEnabled → ∃ v : Word,
      exec .svcStop s = .next { s with block := { s.block with
        interval := v, col := enc s.cfg (normalise s.cfg v), stopPend := false, meas := false } } ∧
      (v.toNat : Int) =
        ((s.block.cnt.toNat : Int) - (s.block.startTick.toNat : Int)) % 2 ^ s.cfg.cntWidth) ∧
    (¬ s.StopEnabled → ∀ t, exec .svcStop s ≠ .next t)

/-- R118, R225, R88: which services are enabled, for each SVC_ORDER; CTRL gates neither. A service
named where it is not enabled stops the run under its own name (the outcome is the model's, log 8). -/
def Obligations.ServiceOrderTable : Prop :=
  ∀ s : State,
    ((∃ t, exec .svcStart s = .next t) ↔ s.block.startPend = true ∧
      (s.cfg.svcOrder = .any ∨ s.cfg.svcOrder = .startFirst ∨ s.block.stopPend = false)) ∧
    ((∃ t, exec .svcStop s = .next t) ↔ s.block.stopPend = true ∧
      (s.cfg.svcOrder = .any ∨ s.cfg.svcOrder = .stopFirst ∨ s.block.startPend = false)) ∧
    ((∀ t, exec .svcStart s ≠ .next t) → exec .svcStart s = .fault .startNotEnabled) ∧
    ((∀ t, exec .svcStop s ≠ .next t) → exec .svcStop s = .fault .stopNotEnabled)

/-- R118, R192: clearing the enables discards no pending flag: after WR_CTRL of any value the same
services are enabled, and they leave the same block but for CTRL. -/
def Obligations.EnablesGateNoService : Prop :=
  ∀ (s t u : State) (d : Word) (i : Instr), i.agent = .svc → exec (.wrCtrl d) s = .next t →
    exec i s = .next u → ∃ v, exec i t = .next v ∧
      v.block = { u.block with startEn := t.block.startEn, stopEn := t.block.stopEn }

/-- R121, R122: the interval by cases: the plain difference, or wrapped by 2^W where START_TICK is
above CNT; with START_TICK = 0 (no start since reset) it is CNT. -/
def Obligations.IntervalWrapsOnce : Prop :=
  ∀ s t : State, s.Inv → exec .svcStop s = .next t →
    (s.block.startTick.toNat ≤ s.block.cnt.toNat →
      t.block.interval.toNat + s.block.startTick.toNat = s.block.cnt.toNat) ∧
    (s.block.cnt.toNat < s.block.startTick.toNat →
      t.block.interval.toNat + s.block.startTick.toNat =
        s.block.cnt.toNat + 2 ^ s.cfg.cntWidth) ∧
    (s.block.startTick = 0 → t.block.interval = s.block.cnt)

/-- R119, R275: START_TICK is the counter at the service, not at the edge: the ticks between them
count in, in every interleaving. -/
def Obligations.ServiceLatencyCountsIn : Prop :=
  ∀ (is : List Instr) (s t : State), s.cfg.Legal → FitsW s.cfg s.block.cnt → .svcStart ∉ is →
    runOps (.pinA true :: .pinA false :: is ++ [.svcStart]) s = .next t →
    t.block.startTick.toNat = (s.block.cnt.toNat + is.count .tick) % 2 ^ s.cfg.cntWidth

/-- R277: with both flags pending under ANY, the stop first measures from the old START_TICK and the
start is then recorded; the start first makes the stop measure 0. -/
def Obligations.BothPendingOrders : Prop :=
  ∀ s : State, s.cfg.Legal → s.cfg.svcOrder = .any → s.block.startPend = true →
    s.block.stopPend = true →
    ∃ t u, runOps [.svcStop, .svcStart] s = .next t ∧ runOps [.svcStart, .svcStop] s = .next u ∧
      (t.block.interval.toNat : Int) =
        ((s.block.cnt.toNat : Int) - (s.block.startTick.toNat : Int)) % 2 ^ s.cfg.cntWidth ∧
      t.block.startTick = s.block.cnt ∧ t.block.meas = true ∧
      u.block.interval = 0 ∧ u.block.startTick = s.block.cnt ∧ u.block.meas = false ∧
      t.block.startPend = false ∧ t.block.stopPend = false ∧
      u.block.startPend = false ∧ u.block.stopPend = false

/-- R86, R271: measure N from any state with both sources enabled and no stop pending measures N
ticks mod 2^W: intervals of 2^W ticks or more alias. -/
def Obligations.MeasureGivesTicksModWidth : Prop :=
  ∀ (s : State) (n : Nat), s.cfg.Legal → FitsW s.cfg s.block.cnt → s.block.startEn = true →
    s.block.stopEn = true → s.block.stopPend = false →
    ∃ t, runWords (measureTicks n) s = .next t ∧
      t.block.interval.toNat = n % 2 ^ s.cfg.cntWidth ∧ t.block.startTick = s.block.cnt ∧
      t.block.startPend = false ∧ t.block.stopPend = false ∧ t.block.meas = false ∧
      t.block.faults = s.block.faults

/-- R119, R278: under weak fairness and SVC_ORDER = ANY, every pending flag is eventually
serviced. -/
def Obligations.PendingFlagsAreServiced : Prop :=
  ∀ (st : Nat → State) (op : Nat → Instr), IsExecution st op → WeaklyFair st op →
    (st 0).cfg.svcOrder = .any → ∀ n,
      ((st n).block.startPend = true → ∃ m, n ≤ m ∧ op m = .svcStart) ∧
      ((st n).block.stopPend = true → ∃ m, n ≤ m ∧ op m = .svcStop)

/-! ## Rate converter and digit encoder (42_rate_converter.md, 43_digit_encoder.md) -/

/-- R141, R162, R167, R169: under EXACT the buffer shows the digits that the integer computation of
R162 gives for the new INTERVAL. -/
def Obligations.ExactDigitsShown : Prop :=
  ∀ s t : State, s.cfg.Legal → s.cfg.numMode = .exact → exec .svcStop s = .next t →
    ShowsDigits s.cfg.glyph
      ![t.block.interval.toNat / s.cfg.fCnt,
        10 * t.block.interval.toNat / s.cfg.fCnt % 10,
        100 * t.block.interval.toNat / s.cfg.fCnt % 100 % 10,
        1000 * t.block.interval.toNat / s.cfg.fCnt % 1000 % 100 % 10]
      t.block.col

/-- R142, R163, R164: under BINARY32 every conversion, the quotient and each product are rounded
before the floor; the extra modulo stages change no digit. -/
def Obligations.Binary32DigitsShown : Prop :=
  ∀ s t : State, s.cfg.Legal → s.cfg.numMode = .binary32 → exec .svcStop s = .next t →
    ∀ v, v = rne32 ((rne32 ⟨t.block.interval.toNat, 1⟩).div (rne32 ⟨s.cfg.fCnt, 1⟩)) →
    ShowsDigits s.cfg.glyph
      ![v.num / v.den, (rne32 (v.scale 10)).floor % 10, (rne32 (v.scale 100)).floor % 10,
        (rne32 (v.scale 1000)).floor % 10]
      t.block.col

/-- R164 (derived by the spec): in both modes the extra modulo stages change no digit, and second,
third and fourth are decimal digits. -/
def Obligations.ExtraModuloChangesNothing : Prop :=
  ∀ (m : NumMode) (v : Frac),
    (digits m v).third = (roundProduct m (v.scale 100)).floor % 10 ∧
    (digits m v).fourth = (roundProduct m (v.scale 1000)).floor % 10 ∧
    (digits m v).second ≤ 9 ∧ (digits m v).third ≤ 9 ∧ (digits m v).fourth ≤ 9

/-- R164, R145: with W = 32 and F_CNT = 2^15, first reaches at most 131071 under EXACT and 131072
under BINARY32, and reaches both. -/
def Obligations.FirstDigitRange : Prop :=
  ∀ c : Config, c.fCnt = 2 ^ 15 →
    (∀ i : Word, (digits .exact (normalise { c with numMode := .exact } i)).first ≤ 131071 ∧
      (digits .binary32 (normalise { c with numMode := .binary32 } i)).first ≤ 131072) ∧
    (digits .exact (normalise { c with numMode := .exact } 0xFFFFFFFF#32)).first = 131071 ∧
    (digits .binary32 (normalise { c with numMode := .binary32 } 0xFFFFFFFF#32)).first = 131072

/-- R165(a), R168: digit 3 renders as 21, 31 in every slot, shifted or not, for every legal GLYPH
and in both modes. -/
def Obligations.DigitThreeIsNeverShifted : Prop :=
  ∀ (s t : State) (k : Fin 4), s.cfg.Legal → exec .svcStop s = .next t →
    (digits s.cfg.numMode (normalise s.cfg t.block.interval)).slot k = 3 →
    t.block.col[2 * k.val] = 21#8 ∧ t.block.col[2 * k.val + 1] = 31#8

/-- R171, R174(d): under EXACT with REF_GLYPH, COL[0] is zero exactly when the value is 10 or more,
and then COL[1] is too; the first bytes of the other slots are never zero. -/
def Obligations.OutOfRangeFirstIsBlank : Prop :=
  ∀ s t : State, s.cfg.Legal → s.cfg.numMode = .exact → s.cfg.glyph = Config.refGlyph →
    exec .svcStop s = .next t →
    (t.block.col[0] = 0 ↔ 10 * s.cfg.fCnt ≤ t.block.interval.toNat) ∧
    (10 * s.cfg.fCnt ≤ t.block.interval.toNat → t.block.col[1] = 0) ∧
    t.block.col[2] ≠ 0 ∧ t.block.col[4] ≠ 0 ∧ t.block.col[6] ≠ 0

/-- R172 (derived by the spec): the result of SVC_STOP depends on nothing but the two counter values
and the parameters; the same interval writes the same buffer. -/
def Obligations.EncoderIgnoresOldBuffer : Prop :=
  ∀ s s' t t' : State, s.cfg = s'.cfg → exec .svcStop s = .next t → exec .svcStop s' = .next t' →
    (s.block.cnt = s'.block.cnt → s.block.startTick = s'.block.startTick →
      t.block.interval = t'.block.interval) ∧
    (t.block.interval = t'.block.interval → t.block.col = t'.block.col)

/-- R14 (from general knowledge, GK1): RNE32 gives a binary32 value (24 bits, least exponent -149;
the exponent is not bounded above, log 12), none is nearer, and a tie goes to the even one. -/
def Obligations.Binary32RoundsToNearestEven : Prop :=
  ∀ q : Frac, 0 < q.den → ∃ (m : Nat) (e : Int),
    m < 2 ^ 24 ∧ -149 ≤ e ∧ (2 ^ 23 ≤ m ∨ e = -149) ∧
    (rne32 q).toRat = (m : ℚ) * (2 : ℚ) ^ e ∧
    ∀ (m' : Nat) (e' : Int), m' < 2 ^ 24 → -149 ≤ e' →
      |(rne32 q).toRat - q.toRat| ≤ |(m' : ℚ) * (2 : ℚ) ^ e' - q.toRat| ∧
      (|(rne32 q).toRat - q.toRat| = |(m' : ℚ) * (2 : ℚ) ^ e' - q.toRat| →
        (m' : ℚ) * (2 : ℚ) ^ e' ≠ (rne32 q).toRat → m % 2 = 0)

/-- R143 (derived by the spec): with F_CNT = 2^15, NORM and the products evaluated in binary64, each
step rounded to nearest even, equal NORM and the products of the EXACT mode, and their floors give the
digits of the EXACT mode. For any other rounding mode the last clause: each exact quotient and
product is itself a binary64 value (an integer below 2^53 times a power of two), which no rounding
mode changes. -/
def Obligations.ExactEqualsBinary64 : Prop :=
  ∀ (c : Config) (i : Word) (v : Frac), c.fCnt = 2 ^ 15 → c.numMode = .exact →
    v = rne64 ((rne64 ⟨i.toNat, 1⟩).div (rne64 ⟨c.fCnt, 1⟩)) →
    v.toRat = (normalise c i).toRat ∧
    (∀ n ∈ [10, 100, 1000], (rne64 (v.scale n)).toRat = ((normalise c i).scale n).toRat) ∧
    digits c.numMode (normalise c i) =
      ⟨v.floor, (rne64 (v.scale 10)).floor % 10, (rne64 (v.scale 100)).floor % 100 % 10,
        (rne64 (v.scale 1000)).floor % 1000 % 100 % 10⟩ ∧
    ∀ n ∈ [1, 10, 100, 1000], ∃ m : Nat, m < 2 ^ 53 ∧
      ((normalise c i).scale n).toRat = (m : ℚ) * (2 : ℚ) ^ (-15 : Int)

/-! ## Host interface and faults (44_host_interface.md, 60_exceptions.md) -/

/-- R191, R194: RD_CTRL and RD_STATUS return the fields at their bits, every other bit 0, and change
nothing; the result stands in State.resp (log 6). -/
def Obligations.ControlAndStatusReads : Prop :=
  (∀ d, decode 0x3000#16 d = .op .rdCtrl) ∧ (∀ d, decode 0x3004#16 d = .op .rdStatus) ∧
  ∀ s : State,
    (∃ r : Word, exec .rdCtrl s = .next { s with resp := some (.result r) } ∧
      r.getLsbD 0 = s.block.startEn ∧ r.getLsbD 1 = s.block.stopEn ∧
      ∀ i, 2 ≤ i → r.getLsbD i = false) ∧
    (∃ r : Word, exec .rdStatus s = .next { s with resp := some (.result r) } ∧
      r.getLsbD 0 = s.block.startPend ∧ r.getLsbD 1 = s.block.stopPend ∧
      r.getLsbD 2 = s.block.meas ∧ ∀ i, 3 ≤ i → r.getLsbD i = false)

/-- R193, R195, R196, R201: the three capture registers read as their value, which is below 2^W, and
nothing changes; the result stands in State.resp (log 6). -/
def Obligations.CounterAndCaptureReads : Prop :=
  ∀ s : State, s.Inv → ∃ r1 r2 r3 : Word,
    exec .rdCnt s = .next { s with resp := some (.result r1) } ∧
    exec .rdStartTick s = .next { s with resp := some (.result r2) } ∧
    exec .rdInterval s = .next { s with resp := some (.result r3) } ∧
    r1 = s.block.cnt ∧ r2 = s.block.startTick ∧ r3 = s.block.interval ∧
    ∀ i, s.cfg.cntWidth ≤ i →
      r1.getLsbD i = false ∧ r2.getLsbD i = false ∧ r3.getLsbD i = false

/-- R52, R197, R198, R199: column bytes in little-endian lanes; a byte read and the word read of the
same byte agree. -/
def Obligations.ColumnReadsAgree : Prop :=
  ∀ s : State, ∃ lo hi : Word,
    exec .rdColbufLo s = .next { s with resp := some (.result lo) } ∧
    exec .rdColbufHi s = .next { s with resp := some (.result hi) } ∧
    (∀ k : Fin 4, lo.extractLsb' (8 * k.val) 8 = s.block.col[k.val] ∧
      hi.extractLsb' (8 * k.val) 8 = s.block.col[k.val + 4]) ∧
    ∀ k : BitVec 3, ∃ r : Word, exec (.rdColb k) s = .next { s with resp := some (.result r) } ∧
      r.toNat = (s.block.col[k.toNat]'k.isLt).toNat ∧
      r = if k.toNat < 4 then (lo >>> (8 * k.toNat)) &&& 0xFF#32
        else (hi >>> (8 * (k.toNat - 4))) &&& 0xFF#32

/-- R56: no read has a side effect and two reads agree; writing CTRL twice equals writing it once;
a faulting access changes no state except FAULTS. The host's response is State.resp (log 6). -/
def Obligations.AccessesHaveNoSideEffects : Prop :=
  (∀ (i : Instr) (s : State), isRead i = true →
    ∃ t, exec i s = .next t ∧ t.block = s.block ∧ exec i t = .next t) ∧
  (∀ (d : Word) (s : State), ∃ t, exec (.wrCtrl d) s = .next t ∧ exec (.wrCtrl d) t = .next t ∧
    t.block = { s.block with startEn := t.block.startEn, stopEn := t.block.stopEn }) ∧
  (∀ (a : Access) (s t : State), exec (.busFault a) s = .next t →
    t.block = { s.block with faults := t.block.faults })

/-- R192: WR_CTRL stores D[0] and D[1] and changes nothing else of the block; D[31:2] is discarded;
a write returns nothing (R190). -/
def Obligations.WriteControlStoresEnables : Prop :=
  (∀ d, decode 0x1000#16 d = .op (.wrCtrl d)) ∧
  ∀ (s : State) (d : Word),
    exec (.wrCtrl d) s = .next { s with
      block := { s.block with
        startEn := decide (d.toNat % 2 = 1), stopEn := decide (d.toNat / 2 % 2 = 1) },
      resp := some .noResult }

/-- R29: reserved bits of CTRL and STATUS read as 0, read bits above a register's width are 0, and
a write to CTRL discards bits 31:2, so the next read of CTRL gives D mod 4. -/
def Obligations.ReservedBitsReadZero : Prop :=
  (∀ b : Block, b.ctrlWord.toNat < 4 ∧ b.statusWord.toNat < 8) ∧
  (∀ s : State, s.Inv → ∀ r ∈ [Reg.cnt, .startTick, .interval],
    (s.block.readReg r).toNat < 2 ^ s.cfg.cntWidth) ∧
  ∀ (s : State) (d : Word), ∃ t, runOps [.wrCtrl d, .rdCtrl] s = .next t ∧
    t.resp = some (.result (BitVec.ofNat 32 (d.toNat % 4)))

/-- R200, R222: an access that is not legal by R53 and R54 is recorded with the code R223 gives it,
answered with a bus error, and changes nothing else: the run goes on (log 10). -/
def Obligations.IllegalAccessesAreRecorded : Prop :=
  ∀ (a : Access) (s : State), ¬ LegalAccess a →
    ∃ code, a.faultCode = some code ∧ exec (.busFault a) s = .next { s with
      block := { s.block with faults := s.block.faults ++ [⟨code, a⟩] },
      resp := some .busError }

/-- R223 over the causes of R221: the first applicable in the order ERR_UNMAPPED, ERR_SIZE,
ERR_ALIGN, ERR_RO_WRITE, with the rule's four examples. -/
def Obligations.FirstApplicableFault : Prop :=
  (∀ a : Access, a.faultCode =
    if ¬ (a.off.toNat ≤ 0x13 ∨ 0x20 ≤ a.off.toNat ∧ a.off.toNat ≤ 0x27) then some .unmapped
    else if a.size = .b16 ∨ a.size = .b8 ∧ a.off.toNat < 0x20 then some .size
    else if a.size = .b32 ∧ a.off.toNat % 4 ≠ 0 then some .align
    else if a.dir ≠ .read ∧ a.off.toNat ≠ 0 then some .roWrite
    else none) ∧
  ∀ d : Word,
    Access.faultCode ⟨.write d, .b16, 0x30#8⟩ = some .unmapped ∧
    Access.faultCode ⟨.write d, .b8, 0x04#8⟩ = some .size ∧
    Access.faultCode ⟨.write d, .b32, 0x05#8⟩ = some .align ∧
    Access.faultCode ⟨.write d, .b32, 0x08#8⟩ = some .roWrite

/-! ## Hazards (70_reset_and_hazards.md) -/

/-- R272: each column byte read is that of the last SVC_STOP before it, in every interleaving. -/
def Obligations.ColumnsAreOfTheLastStop : Prop :=
  ∀ (before after : List Instr) (s t : State), .svcStop ∉ after →
    runOps (before ++ [.svcStop] ++ after) s = .next t →
    ∃ u v, runOps before s = .next u ∧ exec .svcStop u = .next v ∧ t.block.col = v.block.col

/-- R273 (derived by the spec): while STOP_EN = 0 and STOP_PEND = 0, and until the host writes CTRL,
no SVC_STOP can occur in any interleaving, and COL and INTERVAL hold still: the reads see one
frame. -/
def Obligations.ConsistentFrame : Prop :=
  ∀ (is : List Instr) (s t : State), s.block.stopEn = false → s.block.stopPend = false →
    (∀ i ∈ is, isWrCtrl i = false) → runOps is s = .next t →
    .svcStop ∉ is ∧ t.block.col = s.block.col ∧ t.block.interval = s.block.interval ∧
      t.block.stopPend = false ∧ t.block.stopEn = false
end

