-- ==== Sys2Proof/Laws/State.lean ====
section
/-! SUPPORT. One lemma per field per update of the state, true by rfl and used by simp, so that no
proof unfolds a record update. -/

namespace Sys2Proof.Machine

variable (b : Block) (s : State)

@[simp] theorem Block.setCnt_cnt (v : Word) : (b.setCnt v).cnt = v := rfl
@[simp] theorem Block.setCnt_startTick (v : Word) : (b.setCnt v).startTick = b.startTick := rfl
@[simp] theorem Block.setCnt_interval (v : Word) : (b.setCnt v).interval = b.interval := rfl
@[simp] theorem Block.setCnt_col (v : Word) : (b.setCnt v).col = b.col := rfl
@[simp] theorem Block.setCnt_startEn (v : Word) : (b.setCnt v).startEn = b.startEn := rfl
@[simp] theorem Block.setCnt_stopEn (v : Word) : (b.setCnt v).stopEn = b.stopEn := rfl
@[simp] theorem Block.setCnt_startPend (v : Word) : (b.setCnt v).startPend = b.startPend := rfl
@[simp] theorem Block.setCnt_stopPend (v : Word) : (b.setCnt v).stopPend = b.stopPend := rfl
@[simp] theorem Block.setCnt_meas (v : Word) : (b.setCnt v).meas = b.meas := rfl
@[simp] theorem Block.setCnt_lvlA (v : Word) : (b.setCnt v).lvlA = b.lvlA := rfl
@[simp] theorem Block.setCnt_lvlB (v : Word) : (b.setCnt v).lvlB = b.lvlB := rfl
@[simp] theorem Block.setCnt_faults (v : Word) : (b.setCnt v).faults = b.faults := rfl

@[simp] theorem Block.setStartTick_cnt (v : Word) : (b.setStartTick v).cnt = b.cnt := rfl
@[simp] theorem Block.setStartTick_startTick (v : Word) : (b.setStartTick v).startTick = v := rfl
@[simp] theorem Block.setStartTick_interval (v : Word) : (b.setStartTick v).interval = b.interval := rfl
@[simp] theorem Block.setStartTick_col (v : Word) : (b.setStartTick v).col = b.col := rfl
@[simp] theorem Block.setStartTick_startEn (v : Word) : (b.setStartTick v).startEn = b.startEn := rfl
@[simp] theorem Block.setStartTick_stopEn (v : Word) : (b.setStartTick v).stopEn = b.stopEn := rfl
@[simp] theorem Block.setStartTick_startPend (v : Word) : (b.setStartTick v).startPend = b.startPend := rfl
@[simp] theorem Block.setStartTick_stopPend (v : Word) : (b.setStartTick v).stopPend = b.stopPend := rfl
@[simp] theorem Block.setStartTick_meas (v : Word) : (b.setStartTick v).meas = b.meas := rfl
@[simp] theorem Block.setStartTick_lvlA (v : Word) : (b.setStartTick v).lvlA = b.lvlA := rfl
@[simp] theorem Block.setStartTick_lvlB (v : Word) : (b.setStartTick v).lvlB = b.lvlB := rfl
@[simp] theorem Block.setStartTick_faults (v : Word) : (b.setStartTick v).faults = b.faults := rfl

@[simp] theorem Block.setInterval_cnt (v : Word) : (b.setInterval v).cnt = b.cnt := rfl
@[simp] theorem Block.setInterval_startTick (v : Word) : (b.setInterval v).startTick = b.startTick := rfl
@[simp] theorem Block.setInterval_interval (v : Word) : (b.setInterval v).interval = v := rfl
@[simp] theorem Block.setInterval_col (v : Word) : (b.setInterval v).col = b.col := rfl
@[simp] theorem Block.setInterval_startEn (v : Word) : (b.setInterval v).startEn = b.startEn := rfl
@[simp] theorem Block.setInterval_stopEn (v : Word) : (b.setInterval v).stopEn = b.stopEn := rfl
@[simp] theorem Block.setInterval_startPend (v : Word) : (b.setInterval v).startPend = b.startPend := rfl
@[simp] theorem Block.setInterval_stopPend (v : Word) : (b.setInterval v).stopPend = b.stopPend := rfl
@[simp] theorem Block.setInterval_meas (v : Word) : (b.setInterval v).meas = b.meas := rfl
@[simp] theorem Block.setInterval_lvlA (v : Word) : (b.setInterval v).lvlA = b.lvlA := rfl
@[simp] theorem Block.setInterval_lvlB (v : Word) : (b.setInterval v).lvlB = b.lvlB := rfl
@[simp] theorem Block.setInterval_faults (v : Word) : (b.setInterval v).faults = b.faults := rfl

@[simp] theorem Block.setCol_cnt (c : Vector Byte 8) : (b.setCol c).cnt = b.cnt := rfl
@[simp] theorem Block.setCol_startTick (c : Vector Byte 8) : (b.setCol c).startTick = b.startTick := rfl
@[simp] theorem Block.setCol_interval (c : Vector Byte 8) : (b.setCol c).interval = b.interval := rfl
@[simp] theorem Block.setCol_col (c : Vector Byte 8) : (b.setCol c).col = c := rfl
@[simp] theorem Block.setCol_startEn (c : Vector Byte 8) : (b.setCol c).startEn = b.startEn := rfl
@[simp] theorem Block.setCol_stopEn (c : Vector Byte 8) : (b.setCol c).stopEn = b.stopEn := rfl
@[simp] theorem Block.setCol_startPend (c : Vector Byte 8) : (b.setCol c).startPend = b.startPend := rfl
@[simp] theorem Block.setCol_stopPend (c : Vector Byte 8) : (b.setCol c).stopPend = b.stopPend := rfl
@[simp] theorem Block.setCol_meas (c : Vector Byte 8) : (b.setCol c).meas = b.meas := rfl
@[simp] theorem Block.setCol_lvlA (c : Vector Byte 8) : (b.setCol c).lvlA = b.lvlA := rfl
@[simp] theorem Block.setCol_lvlB (c : Vector Byte 8) : (b.setCol c).lvlB = b.lvlB := rfl
@[simp] theorem Block.setCol_faults (c : Vector Byte 8) : (b.setCol c).faults = b.faults := rfl

@[simp] theorem Block.setStartPend_cnt (p : Bool) : (b.setStartPend p).cnt = b.cnt := rfl
@[simp] theorem Block.setStartPend_startTick (p : Bool) : (b.setStartPend p).startTick = b.startTick := rfl
@[simp] theorem Block.setStartPend_interval (p : Bool) : (b.setStartPend p).interval = b.interval := rfl
@[simp] theorem Block.setStartPend_col (p : Bool) : (b.setStartPend p).col = b.col := rfl
@[simp] theorem Block.setStartPend_startEn (p : Bool) : (b.setStartPend p).startEn = b.startEn := rfl
@[simp] theorem Block.setStartPend_stopEn (p : Bool) : (b.setStartPend p).stopEn = b.stopEn := rfl
@[simp] theorem Block.setStartPend_startPend (p : Bool) : (b.setStartPend p).startPend = p := rfl
@[simp] theorem Block.setStartPend_stopPend (p : Bool) : (b.setStartPend p).stopPend = b.stopPend := rfl
@[simp] theorem Block.setStartPend_meas (p : Bool) : (b.setStartPend p).meas = b.meas := rfl
@[simp] theorem Block.setStartPend_lvlA (p : Bool) : (b.setStartPend p).lvlA = b.lvlA := rfl
@[simp] theorem Block.setStartPend_lvlB (p : Bool) : (b.setStartPend p).lvlB = b.lvlB := rfl
@[simp] theorem Block.setStartPend_faults (p : Bool) : (b.setStartPend p).faults = b.faults := rfl

@[simp] theorem Block.setStopPend_cnt (p : Bool) : (b.setStopPend p).cnt = b.cnt := rfl
@[simp] theorem Block.setStopPend_startTick (p : Bool) : (b.setStopPend p).startTick = b.startTick := rfl
@[simp] theorem Block.setStopPend_interval (p : Bool) : (b.setStopPend p).interval = b.interval := rfl
@[simp] theorem Block.setStopPend_col (p : Bool) : (b.setStopPend p).col = b.col := rfl
@[simp] theorem Block.setStopPend_startEn (p : Bool) : (b.setStopPend p).startEn = b.startEn := rfl
@[simp] theorem Block.setStopPend_stopEn (p : Bool) : (b.setStopPend p).stopEn = b.stopEn := rfl
@[simp] theorem Block.setStopPend_startPend (p : Bool) : (b.setStopPend p).startPend = b.startPend := rfl
@[simp] theorem Block.setStopPend_stopPend (p : Bool) : (b.setStopPend p).stopPend = p := rfl
@[simp] theorem Block.setStopPend_meas (p : Bool) : (b.setStopPend p).meas = b.meas := rfl
@[simp] theorem Block.setStopPend_lvlA (p : Bool) : (b.setStopPend p).lvlA = b.lvlA := rfl
@[simp] theorem Block.setStopPend_lvlB (p : Bool) : (b.setStopPend p).lvlB = b.lvlB := rfl
@[simp] theorem Block.setStopPend_faults (p : Bool) : (b.setStopPend p).faults = b.faults := rfl

@[simp] theorem Block.setMeas_cnt (p : Bool) : (b.setMeas p).cnt = b.cnt := rfl
@[simp] theorem Block.setMeas_startTick (p : Bool) : (b.setMeas p).startTick = b.startTick := rfl
@[simp] theorem Block.setMeas_interval (p : Bool) : (b.setMeas p).interval = b.interval := rfl
@[simp] theorem Block.setMeas_col (p : Bool) : (b.setMeas p).col = b.col := rfl
@[simp] theorem Block.setMeas_startEn (p : Bool) : (b.setMeas p).startEn = b.startEn := rfl
@[simp] theorem Block.setMeas_stopEn (p : Bool) : (b.setMeas p).stopEn = b.stopEn := rfl
@[simp] theorem Block.setMeas_startPend (p : Bool) : (b.setMeas p).startPend = b.startPend := rfl
@[simp] theorem Block.setMeas_stopPend (p : Bool) : (b.setMeas p).stopPend = b.stopPend := rfl
@[simp] theorem Block.setMeas_meas (p : Bool) : (b.setMeas p).meas = p := rfl
@[simp] theorem Block.setMeas_lvlA (p : Bool) : (b.setMeas p).lvlA = b.lvlA := rfl
@[simp] theorem Block.setMeas_lvlB (p : Bool) : (b.setMeas p).lvlB = b.lvlB := rfl
@[simp] theorem Block.setMeas_faults (p : Bool) : (b.setMeas p).faults = b.faults := rfl

@[simp] theorem Block.setLvlA_cnt (p : Bool) : (b.setLvlA p).cnt = b.cnt := rfl
@[simp] theorem Block.setLvlA_startTick (p : Bool) : (b.setLvlA p).startTick = b.startTick := rfl
@[simp] theorem Block.setLvlA_interval (p : Bool) : (b.setLvlA p).interval = b.interval := rfl
@[simp] theorem Block.setLvlA_col (p : Bool) : (b.setLvlA p).col = b.col := rfl
@[simp] theorem Block.setLvlA_startEn (p : Bool) : (b.setLvlA p).startEn = b.startEn := rfl
@[simp] theorem Block.setLvlA_stopEn (p : Bool) : (b.setLvlA p).stopEn = b.stopEn := rfl
@[simp] theorem Block.setLvlA_startPend (p : Bool) : (b.setLvlA p).startPend = b.startPend := rfl
@[simp] theorem Block.setLvlA_stopPend (p : Bool) : (b.setLvlA p).stopPend = b.stopPend := rfl
@[simp] theorem Block.setLvlA_meas (p : Bool) : (b.setLvlA p).meas = b.meas := rfl
@[simp] theorem Block.setLvlA_lvlA (p : Bool) : (b.setLvlA p).lvlA = p := rfl
@[simp] theorem Block.setLvlA_lvlB (p : Bool) : (b.setLvlA p).lvlB = b.lvlB := rfl
@[simp] theorem Block.setLvlA_faults (p : Bool) : (b.setLvlA p).faults = b.faults := rfl

@[simp] theorem Block.setLvlB_cnt (p : Bool) : (b.setLvlB p).cnt = b.cnt := rfl
@[simp] theorem Block.setLvlB_startTick (p : Bool) : (b.setLvlB p).startTick = b.startTick := rfl
@[simp] theorem Block.setLvlB_interval (p : Bool) : (b.setLvlB p).interval = b.interval := rfl
@[simp] theorem Block.setLvlB_col (p : Bool) : (b.setLvlB p).col = b.col := rfl
@[simp] theorem Block.setLvlB_startEn (p : Bool) : (b.setLvlB p).startEn = b.startEn := rfl
@[simp] theorem Block.setLvlB_stopEn (p : Bool) : (b.setLvlB p).stopEn = b.stopEn := rfl
@[simp] theorem Block.setLvlB_startPend (p : Bool) : (b.setLvlB p).startPend = b.startPend := rfl
@[simp] theorem Block.setLvlB_stopPend (p : Bool) : (b.setLvlB p).stopPend = b.stopPend := rfl
@[simp] theorem Block.setLvlB_meas (p : Bool) : (b.setLvlB p).meas = b.meas := rfl
@[simp] theorem Block.setLvlB_lvlA (p : Bool) : (b.setLvlB p).lvlA = b.lvlA := rfl
@[simp] theorem Block.setLvlB_lvlB (p : Bool) : (b.setLvlB p).lvlB = p := rfl
@[simp] theorem Block.setLvlB_faults (p : Bool) : (b.setLvlB p).faults = b.faults := rfl

@[simp] theorem Block.setCtrl_cnt (p q : Bool) : (b.setCtrl p q).cnt = b.cnt := rfl
@[simp] theorem Block.setCtrl_startTick (p q : Bool) : (b.setCtrl p q).startTick = b.startTick := rfl
@[simp] theorem Block.setCtrl_interval (p q : Bool) : (b.setCtrl p q).interval = b.interval := rfl
@[simp] theorem Block.setCtrl_col (p q : Bool) : (b.setCtrl p q).col = b.col := rfl
@[simp] theorem Block.setCtrl_startEn (p q : Bool) : (b.setCtrl p q).startEn = p := rfl
@[simp] theorem Block.setCtrl_stopEn (p q : Bool) : (b.setCtrl p q).stopEn = q := rfl
@[simp] theorem Block.setCtrl_startPend (p q : Bool) : (b.setCtrl p q).startPend = b.startPend := rfl
@[simp] theorem Block.setCtrl_stopPend (p q : Bool) : (b.setCtrl p q).stopPend = b.stopPend := rfl
@[simp] theorem Block.setCtrl_meas (p q : Bool) : (b.setCtrl p q).meas = b.meas := rfl
@[simp] theorem Block.setCtrl_lvlA (p q : Bool) : (b.setCtrl p q).lvlA = b.lvlA := rfl
@[simp] theorem Block.setCtrl_lvlB (p q : Bool) : (b.setCtrl p q).lvlB = b.lvlB := rfl
@[simp] theorem Block.setCtrl_faults (p q : Bool) : (b.setCtrl p q).faults = b.faults := rfl

@[simp] theorem Block.addFault_cnt (r : FaultRecord) : (b.addFault r).cnt = b.cnt := rfl
@[simp] theorem Block.addFault_startTick (r : FaultRecord) : (b.addFault r).startTick = b.startTick := rfl
@[simp] theorem Block.addFault_interval (r : FaultRecord) : (b.addFault r).interval = b.interval := rfl
@[simp] theorem Block.addFault_col (r : FaultRecord) : (b.addFault r).col = b.col := rfl
@[simp] theorem Block.addFault_startEn (r : FaultRecord) : (b.addFault r).startEn = b.startEn := rfl
@[simp] theorem Block.addFault_stopEn (r : FaultRecord) : (b.addFault r).stopEn = b.stopEn := rfl
@[simp] theorem Block.addFault_startPend (r : FaultRecord) : (b.addFault r).startPend = b.startPend := rfl
@[simp] theorem Block.addFault_stopPend (r : FaultRecord) : (b.addFault r).stopPend = b.stopPend := rfl
@[simp] theorem Block.addFault_meas (r : FaultRecord) : (b.addFault r).meas = b.meas := rfl
@[simp] theorem Block.addFault_lvlA (r : FaultRecord) : (b.addFault r).lvlA = b.lvlA := rfl
@[simp] theorem Block.addFault_lvlB (r : FaultRecord) : (b.addFault r).lvlB = b.lvlB := rfl
@[simp] theorem Block.addFault_faults (r : FaultRecord) : (b.addFault r).faults = b.faults ++ [r] := rfl

@[simp] theorem State.setBlock_block : (s.setBlock b).block = b := rfl
@[simp] theorem State.setBlock_cfg : (s.setBlock b).cfg = s.cfg := rfl
@[simp] theorem State.setBlock_resp : (s.setBlock b).resp = s.resp := rfl
@[simp] theorem State.setBlock_trace : (s.setBlock b).trace = s.trace := rfl

@[simp] theorem State.respond_block (r : BusResponse) : (s.respond r).block = s.block := rfl
@[simp] theorem State.respond_cfg (r : BusResponse) : (s.respond r).cfg = s.cfg := rfl
@[simp] theorem State.respond_resp (r : BusResponse) : (s.respond r).resp = some r := rfl
@[simp] theorem State.respond_trace (r : BusResponse) : (s.respond r).trace = s.trace := rfl

@[simp] theorem State.setTrace_block (ws : List TraceWord) : (s.setTrace ws).block = s.block := rfl
@[simp] theorem State.setTrace_cfg (ws : List TraceWord) : (s.setTrace ws).cfg = s.cfg := rfl
@[simp] theorem State.setTrace_resp (ws : List TraceWord) : (s.setTrace ws).resp = s.resp := rfl
@[simp] theorem State.setTrace_trace (ws : List TraceWord) : (s.setTrace ws).trace = ws := rfl

@[simp] theorem State.raiseFault_block (code : FaultCode) (a : Access) :
    (s.raiseFault code a).block = s.block.addFault ⟨code, a⟩ := rfl
@[simp] theorem State.raiseFault_cfg (code : FaultCode) (a : Access) :
    (s.raiseFault code a).cfg = s.cfg := rfl
@[simp] theorem State.raiseFault_resp (code : FaultCode) (a : Access) :
    (s.raiseFault code a).resp = some .busError := rfl
@[simp] theorem State.raiseFault_trace (code : FaultCode) (a : Access) :
    (s.raiseFault code a).trace = s.trace := rfl

@[simp] theorem State.busRead_block (r : Reg) : (s.busRead r).block = s.block := rfl
@[simp] theorem State.busRead_cfg (r : Reg) : (s.busRead r).cfg = s.cfg := rfl
@[simp] theorem State.busRead_resp (r : Reg) :
    (s.busRead r).resp = some (.result (s.block.readReg r)) := rfl
@[simp] theorem State.busRead_trace (r : Reg) : (s.busRead r).trace = s.trace := rfl

@[simp] theorem State.resetEvent_block (p q : Bool) :
    (s.resetEvent p q).block = Block.reset p q := rfl
@[simp] theorem State.resetEvent_cfg (p q : Bool) : (s.resetEvent p q).cfg = s.cfg := rfl
@[simp] theorem State.resetEvent_resp (p q : Bool) : (s.resetEvent p q).resp = s.resp := rfl
@[simp] theorem State.resetEvent_trace (p q : Bool) : (s.resetEvent p q).trace = s.trace := rfl

/-- Two states with the same four fields are the same state. -/
theorem State.ext_fields {s t : State} (h1 : s.block = t.block) (h2 : s.cfg = t.cfg)
    (h3 : s.resp = t.resp) (h4 : s.trace = t.trace) : s = t := by
  cases s
  cases t
  simp_all

end Sys2Proof.Machine
end

