-- ==== Sys2Proof/Laws/Ops.lean ====
section
/-! SUPPORT. One lemma per shared operation that says once what it does, and the arms of exec as
equations. -/

namespace Sys2Proof.Machine

/-! Arithmetic mod 2^W. -/

/-- A wrapped integer is its residue mod 2^W (R14), where W is legal (R7). -/
theorem wrapW_toNat {c : Config} (h : c.cntWidth ≤ 32) (x : Int) :
    ((wrapW c x).toNat : Int) = x % (2 : Int) ^ c.cntWidth := by
  have hpos : (0 : Int) < 2 ^ c.cntWidth := by positivity
  have h0 := Int.emod_nonneg x hpos.ne'
  have h1 := Int.emod_lt_of_pos x hpos
  have h2 : (2 : Int) ^ c.cntWidth ≤ 2 ^ 32 := by gcongr; norm_num
  rw [wrapW, BitVec.toNat_ofInt, Int.emod_eq_of_lt h0 (by push_cast; omega), Int.toNat_of_nonneg h0]

/-- A wrapped integer fits its W-bit field (R14). -/
theorem wrapW_lt {c : Config} (h : c.cntWidth ≤ 32) (x : Int) :
    (wrapW c x).toNat < 2 ^ c.cntWidth := by
  have hpos : (0 : Int) < 2 ^ c.cntWidth := by positivity
  have h1 := Int.emod_lt_of_pos x hpos
  have h2 := wrapW_toNat h x
  zify
  omega

/-! The arms of exec. -/

@[simp] theorem exec_tick (s : State) : exec .tick s =
    .next (s.setBlock (s.block.setCnt (wrapW s.cfg ((s.block.cnt.toNat : Int) + 1)))) := rfl

@[simp] theorem exec_pinA (v : Bool) (s : State) : exec (.pinA v) s =
    .next (s.setBlock ((s.block.setStartPend (s.block.startPendAfter v)).setLvlA v)) := rfl

@[simp] theorem exec_pinB (v : Bool) (s : State) : exec (.pinB v) s =
    .next (s.setBlock ((s.block.setStopPend (s.block.stopPendAfter v)).setLvlB v)) := rfl

theorem exec_svcStart (s : State) : exec .svcStart s =
    if s.startEnabled then .next (s.setBlock s.block.captureStart) else .fault .startNotEnabled := rfl

theorem exec_svcStop (s : State) : exec .svcStop s =
    if s.stopEnabled then
      .next (s.setBlock (s.block.latchStop s.measured (enc s.cfg (normalise s.cfg s.measured))))
    else .fault .stopNotEnabled := rfl

@[simp] theorem exec_rdCtrl (s : State) : exec .rdCtrl s = .next (s.busRead .ctrl) := rfl
@[simp] theorem exec_rdStatus (s : State) : exec .rdStatus s = .next (s.busRead .status) := rfl
@[simp] theorem exec_rdCnt (s : State) : exec .rdCnt s = .next (s.busRead .cnt) := rfl
@[simp] theorem exec_rdStartTick (s : State) :
    exec .rdStartTick s = .next (s.busRead .startTick) := rfl
@[simp] theorem exec_rdInterval (s : State) :
    exec .rdInterval s = .next (s.busRead .interval) := rfl
@[simp] theorem exec_rdColbufLo (s : State) :
    exec .rdColbufLo s = .next (s.busRead .colbufLo) := rfl
@[simp] theorem exec_rdColbufHi (s : State) :
    exec .rdColbufHi s = .next (s.busRead .colbufHi) := rfl
@[simp] theorem exec_rdColb (k : BitVec 3) (s : State) :
    exec (.rdColb k) s = .next (s.respond (.result (s.block.readCol k))) := rfl
@[simp] theorem exec_wrCtrl (d : Word) (s : State) : exec (.wrCtrl d) s =
    .next ((s.setBlock (s.block.setCtrl (d.getLsbD 0) (d.getLsbD 1))).respond .noResult) := rfl

theorem exec_busFault (a : Access) (s : State) : exec (.busFault a) s =
    match a.faultCode with
    | some code => .next (s.raiseFault code a)
    | none => .refused .notABusFault := rfl

/-- SVC_START answers a next state only where it is enabled, and then only this one. -/
theorem execSvcStart_next {s t : State} (h : exec .svcStart s = .next t) :
    s.startEnabled = true ∧ t = s.setBlock s.block.captureStart := by
  rw [exec_svcStart] at h
  split at h
  · next he => exact ⟨he, by injection h with h; exact h.symm⟩
  · cases h

/-- SVC_STOP answers a next state only where it is enabled, and then only this one. -/
theorem execSvcStop_next {s t : State} (h : exec .svcStop s = .next t) :
    s.stopEnabled = true ∧
      t = s.setBlock (s.block.latchStop s.measured (enc s.cfg (normalise s.cfg s.measured))) := by
  rw [exec_svcStop] at h
  split at h
  · next he => exact ⟨he, by injection h with h; exact h.symm⟩
  · cases h

/-- BUS_FAULT answers a next state only for an access with a fault, and then raises it. -/
theorem execBusFault_next {a : Access} {s t : State} (h : exec (.busFault a) s = .next t) :
    ∃ code, a.faultCode = some code ∧ t = s.raiseFault code a := by
  rw [exec_busFault] at h
  split at h
  · next code hc => exact ⟨code, hc, by injection h with h; exact h.symm⟩
  · cases h

/-! The groups of writes of the services. -/

@[simp] theorem Block.captureStart_startTick (b : Block) : b.captureStart.startTick = b.cnt := rfl
@[simp] theorem Block.captureStart_startPend (b : Block) : b.captureStart.startPend = false := rfl
@[simp] theorem Block.captureStart_meas (b : Block) : b.captureStart.meas = true := rfl

/-- SVC_START leaves every other element (R116). -/
theorem Block.captureStart_frame (b : Block) :
    b.captureStart = { b with startTick := b.cnt, startPend := false, meas := true } := rfl

/-- SVC_STOP leaves every other element (R117). -/
theorem Block.latchStop_frame (i : Word) (buf : Vector Byte 8) (b : Block) :
    b.latchStop i buf = { b with interval := i, col := buf, stopPend := false, meas := false } := rfl

/-! The trace. -/

@[simp] theorem nextWord_cons (s : State) (w : TraceWord) (ws : List TraceWord) :
    (s.setTrace (w :: ws)).nextWord = some (w, s.setTrace ws) := rfl

theorem nextWord_nil {s : State} (h : s.trace = []) : s.nextWord = none := by
  simp [State.nextWord, h]

@[simp] theorem runOps_nil (s : State) : runOps [] s = .next s := rfl
@[simp] theorem runWords_nil (s : State) : runWords [] s = .next s := rfl

/-- A run of a non-empty list takes its first operation and then the rest. -/
theorem runOps_cons_next {i : Instr} {is : List Instr} {s t : State}
    (h : runOps (i :: is) s = .next t) : ∃ u, exec i s = .next u ∧ runOps is u = .next t := by
  rw [runOps] at h
  split at h
  · next u hu => exact ⟨u, hu, h⟩
  · cases h
  · cases h

/-- The converse. -/
theorem runOps_cons {i : Instr} {is : List Instr} {s u : State} (h : exec i s = .next u) :
    runOps (i :: is) s = runOps is u := by
  rw [runOps, h]

/-- A word that decodes to an operation runs as that operation. -/
theorem runWord_of_decode {w : TraceWord} {i : Instr} (h : decode w.opw w.d = .op i) (s : State) :
    runWord w s = exec i s := by
  rw [runWord, h]

/-! The column buffer. -/

/-- What one slot's write does to its pair: each byte is ORed with its pattern (R170). -/
theorem writeSlot_pair (buf : Vector Byte 8) (s : Fin 4) (p : Byte × Byte) :
    (writeSlot buf s p)[2 * s.val] = buf[2 * s.val] ||| p.1 ∧
      (writeSlot buf s p)[2 * s.val + 1] = buf[2 * s.val + 1] ||| p.2 := by
  simp [writeSlot]

/-- It leaves every other byte: the pairs are disjoint (R167). -/
theorem writeSlot_other (buf : Vector Byte 8) (s : Fin 4) (p : Byte × Byte) (k : Nat) (hk : k < 8)
    (h : k / 2 ≠ s.val) : (writeSlot buf s p)[k] = buf[k] := by
  have h0 : 2 * s.val ≠ k := by omega
  have h1 : 2 * s.val + 1 ≠ k := by omega
  simp [writeSlot, h0, h1]

/-- The buffer of four digits, byte by byte: slot s owns bytes 2s and 2s+1 and holds its pattern
there (R167, R173). -/
theorem columnsOf_pair (glyph : Vector Glyph 10) (d : Digits) (s : Fin 4) :
    (columnsOf glyph d)[2 * s.val] = (pat glyph (d.slot s) s).1 ∧
      (columnsOf glyph d)[2 * s.val + 1] = (pat glyph (d.slot s) s).2 := by
  fin_cases s <;> simp [columnsOf, writeSlot, clearedCol, Digits.slot]

end Sys2Proof.Machine
end

