-- ==== Sys2Proof/Laws/PerInstr.lean ====
section
/-! SUPPORT. Statements for all instructions, one lemma per constructor: families named in
LAWS.json. -/

namespace Sys2Proof.Laws.AgentClass

/-- The CLASS field a format's agent has (30_encoding.md R71, R87). -/
def classOf (a : Agent) : BitVec 2 :=
  match a with
  | .host => 0b00#2
  | .clk => 0b01#2
  | .env => 0b01#2
  | .svc => 0b10#2

/-- The CLASS of an operation's word is that of its agent (R71, R87). -/
def Statement (i : Instr) : Prop := opClass (encode i).opw = classOf i.agent

/-- The word of a bus access has CLASS 00 (R72). -/
theorem opClass_encodeAccess (a : Access) : opClass (encodeAccess a) = 0b00#2 := by
  apply BitVec.eq_of_getLsbD_eq
  intro j hj
  obtain rfl | rfl : j = 0 ∨ j = 1 := by omega
  all_goals simp [opClass, encodeAccess]

theorem tick : Statement .tick := rfl
theorem pinA (lvl : Bool) : Statement (.pinA lvl) := by cases lvl <;> rfl
theorem pinB (lvl : Bool) : Statement (.pinB lvl) := by cases lvl <;> rfl
theorem svcStart : Statement .svcStart := rfl
theorem svcStop : Statement .svcStop := rfl
theorem rdCtrl : Statement .rdCtrl := rfl
theorem wrCtrl (d : Word) : Statement (.wrCtrl d) := opClass_encodeAccess _
theorem rdStatus : Statement .rdStatus := rfl
theorem rdCnt : Statement .rdCnt := rfl
theorem rdStartTick : Statement .rdStartTick := rfl
theorem rdInterval : Statement .rdInterval := rfl
theorem rdColbufLo : Statement .rdColbufLo := rfl
theorem rdColbufHi : Statement .rdColbufHi := rfl

theorem rdColb (k : BitVec 3) : Statement (.rdColb k) :=
  opClass_encodeAccess ⟨.read, .b8, 0x20#8 + k.setWidth 8⟩

theorem busFault (a : Access) : Statement (.busFault a) := opClass_encodeAccess a

end Sys2Proof.Laws.AgentClass

namespace Sys2Proof.Laws.DataBesideWrites

/-- Only a write carries an operand beside its word (R75): every other operation's is 0. -/
def Statement (i : Instr) : Prop :=
  ¬ (opClass (encode i).opw = 0b00#2 ∧ (encode i).opw.getLsbD 13 = false) → (encode i).d = 0#32

/-- The word of a write has DIR = 0 (R72). -/
theorem dir_encodeAccess_write (d : Word) (size : BusSize) (off : Byte) :
    (encodeAccess ⟨.write d, size, off⟩).getLsbD 13 = false := by
  simp [encodeAccess, encodeDir]

theorem tick : Statement .tick := fun _ => rfl
theorem pinA (lvl : Bool) : Statement (.pinA lvl) := fun _ => rfl
theorem pinB (lvl : Bool) : Statement (.pinB lvl) := fun _ => rfl
theorem svcStart : Statement .svcStart := fun _ => rfl
theorem svcStop : Statement .svcStop := fun _ => rfl
theorem rdCtrl : Statement .rdCtrl := fun _ => rfl
theorem wrCtrl (d : Word) : Statement (.wrCtrl d) :=
  fun h => absurd ⟨AgentClass.opClass_encodeAccess _, dir_encodeAccess_write _ _ _⟩ h
theorem rdStatus : Statement .rdStatus := fun _ => rfl
theorem rdCnt : Statement .rdCnt := fun _ => rfl
theorem rdStartTick : Statement .rdStartTick := fun _ => rfl
theorem rdInterval : Statement .rdInterval := fun _ => rfl
theorem rdColbufLo : Statement .rdColbufLo := fun _ => rfl
theorem rdColbufHi : Statement .rdColbufHi := fun _ => rfl
theorem rdColb (k : BitVec 3) : Statement (.rdColb k) := fun _ => rfl

theorem busFault (a : Access) : Statement (.busFault a) := by
  obtain ⟨dir, size, off⟩ := a
  cases dir with
  | read => exact fun _ => rfl
  | write d =>
    exact fun h => absurd ⟨AgentClass.opClass_encodeAccess _, dir_encodeAccess_write _ _ _⟩ h

end Sys2Proof.Laws.DataBesideWrites
end

