-- ==== Sys2Proof/Machine/Assembler.lean ====
section
/-! DEFINITION. The assembler: the text of a line to its operation words (30_encoding.md R85, R86).
Where R85 leaves the spelling of blanks and numbers open the choice is the model's
(DESIGN CHOICE, safe: notes/assumptions/17.md). -/

namespace Sys2Proof.Machine

/-- A blank, or the comma between operands. -/
def asmBlank (c : Char) : Bool := c = ' ' || c = ',' || c = '\t'

/-- The words of a line; cur is the word being read, in reverse. -/
def asmSplit (cs cur : List Char) : List (List Char) :=
  match cs with
  | [] => if cur.isEmpty then [] else [cur.reverse]
  | c :: rest =>
    if asmBlank c then
      if cur.isEmpty then asmSplit rest [] else cur.reverse :: asmSplit rest []
    else asmSplit rest (c :: cur)

/-- The tokens of a line: what stands before a comment and before the result of a listing (R85). -/
def asmTokens (line : String) : List (List Char) :=
  (asmSplit (line.toList.takeWhile fun c => c ≠ ';') []).takeWhile fun t => t ≠ "->".toList

/-- The value of a digit in a base. -/
def asmDigit (base : Nat) (c : Char) : Option Nat :=
  let v :=
    if '0' ≤ c ∧ c ≤ '9' then c.toNat - '0'.toNat
    else if 'a' ≤ c ∧ c ≤ 'f' then c.toNat - 'a'.toNat + 10
    else if 'A' ≤ c ∧ c ≤ 'F' then c.toNat - 'A'.toNat + 10
    else base
  if v < base then some v else none

/-- The value of digits in a base, after the value acc. -/
def asmDigits (base acc : Nat) (cs : List Char) : Option Nat :=
  match cs with
  | [] => some acc
  | c :: rest =>
    match asmDigit base c with
    | some v => asmDigits base (acc * base + v) rest
    | none => none

/-- A number: 0x hexadecimal, 0b binary, else decimal (R13). -/
def asmNumber (cs : List Char) : Option Nat :=
  match cs with
  | [] => none
  | ['0', 'x'] => none
  | ['0', 'b'] => none
  | '0' :: 'x' :: rest => asmDigits 16 0 rest
  | '0' :: 'b' :: rest => asmDigits 2 0 rest
  | _ => asmDigits 10 0 cs

/-- A number below a bound. -/
def asmBelow (bound : Nat) (cs : List Char) : Option Nat :=
  match asmNumber cs with
  | some n => if n < bound then some n else none
  | none => none

/-- A pin level: 0 or 1 (R85). -/
def asmLevel (cs : List Char) : Option Bool := (asmBelow 2 cs).map fun n => n = 1

/-- A 32-bit literal (R85). -/
def asmData (cs : List Char) : Option Word := (asmBelow (2 ^ 32) cs).map fun n => BitVec.ofNat 32 n

/-- A numeric offset, or COL+k for 0x20+k (R85). -/
def asmOffset (cs : List Char) : Option Byte :=
  if cs.take 4 = "COL+".toList then (asmBelow 8 (cs.drop 4)).map fun k => BitVec.ofNat 8 (0x20 + k)
  else (asmBelow 256 cs).map fun n => BitVec.ofNat 8 n

/-- A register's name (R51). -/
def asmReg (cs : List Char) : Option Reg :=
  if cs = "CTRL".toList then some .ctrl
  else if cs = "STATUS".toList then some .status
  else if cs = "CNT".toList then some .cnt
  else if cs = "START_TICK".toList then some .startTick
  else if cs = "INTERVAL".toList then some .interval
  else if cs = "COLBUF_LO".toList then some .colbufLo
  else if cs = "COLBUF_HI".toList then some .colbufHi
  else none

/-- The operand REG of rd.w and wr.w: a register's name or a numeric offset (R85). -/
def asmRegOffset (cs : List Char) : Option Byte :=
  match asmReg cs with
  | some r => some r.offset
  | none => (asmBelow 256 cs).map fun n => BitVec.ofNat 8 n

/-- A line with no operand (R85, R86). -/
def asmPlain (m : List Char) : Option (List TraceWord) :=
  if m = "tick".toList then some [assemble .tick]
  else if m = "svc.start".toList then some [assemble .svcStart]
  else if m = "svc.stop".toList then some [assemble .svcStop]
  else if m = "fall.a".toList then some fallA
  else if m = "rise.b".toList then some riseB
  else if m = "enable".toList then some enable
  else if m = "rd.col".toList then some rdCol
  else none

/-- A line with one operand (R85, R86). -/
def asmOne (m x : List Char) : Option (List TraceWord) :=
  if m = "pin.a".toList then (asmLevel x).map fun l => [assemble (.pinA l)]
  else if m = "pin.b".toList then (asmLevel x).map fun l => [assemble (.pinB l)]
  else if m = "rd.w".toList then (asmRegOffset x).map fun o => [assemble (.rdW o)]
  else if m = "rd.b".toList then (asmOffset x).map fun o => [assemble (.rdB o)]
  else if m = "rd.h".toList then (asmOffset x).map fun o => [assemble (.rdH o)]
  else if m = "tick".toList then (asmNumber x).map ticks
  else if m = "measure".toList then (asmNumber x).map measureTicks
  else none

/-- A write with its operand D (R85). -/
def asmWrite (m : List Char) (x d : List Char) : Option (List TraceWord) :=
  match asmData d with
  | none => none
  | some v =>
    if m = "wr.w".toList then (asmRegOffset x).map fun o => [assemble (.wrW o v)]
    else if m = "wr.b".toList then (asmOffset x).map fun o => [assemble (.wrB o v)]
    else if m = "wr.h".toList then (asmOffset x).map fun o => [assemble (.wrH o v)]
    else none

/-- The words of one line of assembly, or none where it is no line of R85 or R86. A line of blanks
or of comment alone has no words. -/
def assembleLine (line : String) : Option (List TraceWord) :=
  match asmTokens line with
  | [] => some []
  | [m] => asmPlain m
  | [m, x] => asmOne m x
  | [m, x, d] => asmWrite m x d
  | _ => none

/-- The words of a program, one line after another. -/
def assembleProgram (lines : List String) : Option (List TraceWord) :=
  match lines with
  | [] => some []
  | l :: rest =>
    match assembleLine l, assembleProgram rest with
    | some ws, some more => some (ws ++ more)
    | _, _ => none

end Sys2Proof.Machine
end

