-- ==== Sys2Proof/Tests/Slice0.lean ====
section
/-! SUPPORT. Tests of the model, one step each, with expected values from spec/95_test_vectors.md or
from the encoding tables of spec/30_encoding.md, and a witness for the hypotheses of each statement. -/

namespace Sys2Proof.Tests

open Sys2Proof Sys2Proof.Machine

/-- The next state of an outcome. -/
def nextOf (o : Host.Outcome State Fault Refusal) : Option State :=
  match o with
  | .next s => some s
  | .fault _ => none
  | .refused _ => none

/-- A state of this hardware around a block. -/
def around (b : Block) : State := ⟨b, Config.hardware, none, []⟩

/-- The reset block with PIN_A recorded high and PIN_B low. -/
def blank : Block := Block.reset true false

/-- The same parameters in the BINARY32 mode. -/
def floatConfig : Config := { Config.hardware with numMode := .binary32 }

/-! ## WellFormed -/

/-- A BUS_FAULT of a legal access is spelled by no word (R80). -/
theorem test_wellFormed_refuses_legal_access :
    (Instr.busFault ⟨.read, .b32, 0x00#8⟩).wellFormed = false := by decide

theorem test_wellFormed_takes_faulting_access :
    (Instr.busFault ⟨.read, .b32, 0x14#8⟩).wellFormed = true := by decide

/-! ## Words written out from the tables of R72 to R79 -/

theorem test_decode_tick : decode 0b0100000000000000#16 0#32 = .op .tick := by decide

theorem test_decode_pinA : decode 0b0100000000010001#16 0#32 = .op (.pinA true) ∧
    decode 0b0100000000010000#16 0#32 = .op (.pinA false) := by decide

theorem test_decode_pinB : decode 0b0100000000100001#16 0#32 = .op (.pinB true) ∧
    decode 0b0100000000100000#16 0#32 = .op (.pinB false) := by decide

theorem test_decode_svcStart : decode 0b1000000000000001#16 0#32 = .op .svcStart := by decide

theorem test_decode_svcStop : decode 0b1000000000000010#16 0#32 = .op .svcStop := by decide

theorem test_decode_rdCtrl : decode 0b0011000000000000#16 0#32 = .op .rdCtrl := by decide

theorem test_decode_wrCtrl : decode 0b0001000000000000#16 3#32 = .op (.wrCtrl 3#32) := by decide

theorem test_decode_rdStatus : decode 0b0011000000000100#16 0#32 = .op .rdStatus := by decide

theorem test_decode_rdCnt : decode 0b0011000000001000#16 0#32 = .op .rdCnt := by decide

theorem test_decode_rdStartTick : decode 0b0011000000001100#16 0#32 = .op .rdStartTick := by decide

theorem test_decode_rdInterval : decode 0b0011000000010000#16 0#32 = .op .rdInterval := by decide

theorem test_decode_rdColbufLo : decode 0b0011000000100000#16 0#32 = .op .rdColbufLo := by decide

theorem test_decode_rdColbufHi : decode 0b0011000000100100#16 0#32 = .op .rdColbufHi := by decide

theorem test_decode_rdColb : decode 0b0010000000100110#16 0#32 = .op (.rdColb 6#3) := by decide

/-- V111: wr.h 0x30 carries its operand D. -/
theorem test_decode_busFault : decode 0b0000100000110000#16 0xABCD#32 =
    .op (.busFault ⟨.write 0xABCD#32, .b16, 0x30#8⟩) := by decide

/-- V115, V119 to V122. -/
theorem test_decode_refuses :
    decode 0x4001#16 0#32 = .refuse .reservedEvent ∧
    decode 0x8003#16 0#32 = .refuse .reservedService ∧
    decode 0xC000#16 0#32 = .refuse .reservedClass ∧
    decode 0x3808#16 0#32 = .refuse .reservedBus ∧
    decode 0x3108#16 0#32 = .refuse .reservedBus := by decide

/-- The operand D of a write follows its word; it is 0 where the row's bits end before it. -/
theorem test_decodeTableWord : decodeTableWord 16 0x1000 = some (.wrCtrl 0#32) ∧
    decodeTableWord 48 0x31000 = some (.wrCtrl 3#32) ∧ decodeTableWord 16 0xC000 = none := by decide

/-! ## One step of each operation, against the vectors of spec/95_test_vectors.md -/

/-- V22: the counter wraps with no flag and no fault. -/
theorem test_tick_wraps :
    ((nextOf (exec .tick (around { blank with cnt := 0xFFFFFFFF#32 }))).map State.block) =
      some { blank with cnt := 0#32 } := by decide

/-- V23: W = 8. -/
theorem test_tick_narrow :
    ((nextOf (exec .tick ⟨{ blank with cnt := 0xFF#32 }, { Config.hardware with cntWidth := 8 },
      none, []⟩)).map fun s => s.block.cnt) = some 0#32 := by decide

/-- V30. -/
theorem test_pinA_falling :
    ((nextOf (exec (.pinA false) (around { blank with startEn := true }))).map State.block) =
      some { blank with startEn := true, startPend := true, lvlA := false } := by decide

/-- V33: a rising edge on PIN_A is ignored. -/
theorem test_pinA_rising :
    ((nextOf (exec (.pinA true) (around { blank with startEn := true, lvlA := false }))).map
      State.block) = some { blank with startEn := true, lvlA := true } := by decide

/-- V36. -/
theorem test_pinB_rising :
    ((nextOf (exec (.pinB true) (around { blank with stopEn := true }))).map State.block) =
      some { blank with stopEn := true, stopPend := true, lvlB := true } := by decide

/-- V38: a disabled source's edge is lost. -/
theorem test_pinB_disabled :
    ((nextOf (exec (.pinB true) (around blank))).map State.block) =
      some { blank with lvlB := true } := by decide

/-- V44: a restart. -/
theorem test_svcStart_restarts :
    ((nextOf (exec .svcStart (around { blank with
      cnt := 300#32, startTick := 100#32, meas := true, startPend := true }))).map State.block) =
      some { blank with cnt := 300#32, startTick := 300#32, meas := true } := by decide

/-- V52: held back by STOP_FIRST. -/
theorem test_svcStart_heldBack :
    nextOf (exec .svcStart ⟨{ blank with startPend := true, stopPend := true },
      { Config.hardware with svcOrder := .stopFirst }, none, []⟩) = none := by decide

/-- V48: a wrapped interval, first out of range. -/
theorem test_svcStop_wraps :
    ((nextOf (exec .svcStop (around { blank with
      cnt := 5#32, startTick := 10#32, stopPend := true }))).map
        fun s => (s.block.interval, s.block.col)) =
      some (0xFFFFFFFB#32,
        #v[0x00#8, 0x00#8, 0xA0#8, 0x60#8, 0x0A#8, 0x06#8, 0xA0#8, 0x60#8]) := by decide

/-- V12 under BINARY32: the first interval at which the two modes differ. -/
theorem test_svcStop_binary32 :
    ((nextOf (exec .svcStop ⟨{ blank with cnt := 137003#32, stopPend := true }, floatConfig,
      none, []⟩)).map fun s => s.block.col) =
      some #v[0x05#8, 0x0B#8, 0x20#8, 0x00#8, 0x09#8, 0x07#8, 0x20#8, 0x00#8] := by decide

/-- V90. -/
theorem test_rdCtrl :
    ((nextOf (exec .rdCtrl (around { blank with startEn := true, stopEn := true }))).bind
      State.resp) = some (.result 0x3#32) := by decide

/-- V99: D[31:2] is discarded. -/
theorem test_wrCtrl : ((nextOf (exec (.wrCtrl 0xFFFFFFFF#32) (around blank))).map State.block) =
    some { blank with startEn := true, stopEn := true } := by decide

/-- V101. -/
theorem test_rdStatus :
    ((nextOf (exec .rdStatus (around { blank with startPend := true, meas := true }))).bind
      State.resp) = some (.result 0x5#32) := by decide

/-- V92. -/
theorem test_rdCnt : ((nextOf (exec .rdCnt (around { blank with cnt := 0x8C#32 }))).bind
    State.resp) = some (.result 0x8C#32) := by decide

/-- V93. -/
theorem test_rdStartTick : ((nextOf (exec .rdStartTick (around { blank with
    startTick := 0x64#32 }))).bind State.resp) = some (.result 0x64#32) := by decide

/-- V94. -/
theorem test_rdInterval : ((nextOf (exec .rdInterval (around { blank with
    interval := 0x28#32 }))).bind State.resp) = some (.result 0x28#32) := by decide

/-- The buffer of V1. -/
def frameV1 : Vector Byte 8 :=
  #v[0x01#8, 0x0F#8, 0x10#8, 0xF0#8, 0x01#8, 0x0F#8, 0x20#8, 0x00#8]

/-- V95. -/
theorem test_rdColbufLo : ((nextOf (exec .rdColbufLo (around { blank with
    col := frameV1 }))).bind State.resp) = some (.result 0xF0100F01#32) := by decide

/-- V96. -/
theorem test_rdColbufHi : ((nextOf (exec .rdColbufHi (around { blank with
    col := frameV1 }))).bind State.resp) = some (.result 0x00200F01#32) := by decide

/-- V97. -/
theorem test_rdColb : ((nextOf (exec (.rdColb 6#3) (around { blank with
    col := frameV1 }))).bind State.resp) = some (.result 0x20#32) := by decide

/-- V102. -/
theorem test_busFault_roWrite :
    ((nextOf (exec (.busFault ⟨.write 0#32, .b32, 0x08#8⟩) (around blank))).map
      fun s => (s.block.faults, s.resp)) =
      some ([⟨.roWrite, ⟨.write 0#32, .b32, 0x08#8⟩⟩], some .busError) := by decide

/-- V109 and V111: the order of the causes. -/
theorem test_faultCode_order :
    Access.faultCode ⟨.write 0#32, .b32, 0x05#8⟩ = some .align ∧
    Access.faultCode ⟨.write 0xABCD#32, .b16, 0x30#8⟩ = some .unmapped := by decide

/-- V43, P9a: SVC_START from reset is stuck. -/
theorem test_step_stuck :
    step (State.reset.withFetchWord 16 0x8001) = .fault .startNotEnabled := by rfl

/-- P9b: the word 0xC000 is refused. -/
theorem test_step_refused :
    step (State.reset.withFetchWord 16 0xC000) = .refused (.reservedWord .reservedClass) := by rfl

/-! ## The assembler, against the encodings beside the programs P1 and P5 -/

theorem test_assemble_write : assembleLine "wr.w CTRL, 0x3 ; both sources enabled" =
    some [⟨0x1000#16, 0x3#32⟩] := by decide

theorem test_assemble_reads : assembleProgram ["rd.w CNT -> 0x00000064", "rd.b COL+6", "rd.w 0x14"] =
    some [⟨0x3008#16, 0#32⟩, ⟨0x2026#16, 0#32⟩, ⟨0x3014#16, 0#32⟩] := by decide

theorem test_assemble_faulting : assembleLine "wr.h 0x30, 0xABCD" = some [⟨0x0830#16, 0xABCD#32⟩] ∧
    assembleLine "rd.b 0x100" = none := by decide

theorem test_assemble_pseudo : assembleLine "measure 2" =
    some [⟨0x4011#16, 0⟩, ⟨0x4010#16, 0⟩, ⟨0x8001#16, 0⟩, ⟨0x4000#16, 0⟩, ⟨0x4000#16, 0⟩,
      ⟨0x4020#16, 0⟩, ⟨0x4021#16, 0⟩, ⟨0x8002#16, 0⟩] := by decide

/-! ## The digit encoder on values (W2, W5) and the rounding (V65, V67) -/

/-- W2: 1.256 in both modes; under BINARY32 the value is RNE32(1.256). -/
theorem test_digits_1256 : digits .exact ⟨1256, 1000⟩ = ⟨1, 2, 5, 6⟩ ∧
    digits .binary32 (rne32 ⟨1256, 1000⟩) = ⟨1, 2, 5, 6⟩ := by decide

/-- W5: digit 3 in every slot. -/
theorem test_columns_3333 : columnsOf Config.refGlyph ⟨3, 3, 3, 3⟩ =
    #v[0x15#8, 0x1F#8, 0x15#8, 0x1F#8, 0x15#8, 0x1F#8, 0x15#8, 0x1F#8] := by decide

/-- V65: 2^24 + 1 rounds to 2^24, a tie to even. -/
theorem test_rne32_tie : (rne32 ⟨16777217, 1⟩).floor = 16777216 := by decide

/-! ## Witnesses: a state and operands that meet the hypotheses of each statement -/

/-- Both sources enabled, both flags pending, PIN_A high, PIN_B low. -/
def busy : Block := { blank with
  cnt := 140#32, startTick := 100#32, startEn := true, stopEn := true, startPend := true,
  stopPend := true, meas := true }

theorem test_witness_DecodeOfEncode :
    (Instr.busFault ⟨.write 7#32, .b32, 0x04#8⟩).WellFormed ∧ Instr.tick.WellFormed := by decide

theorem test_witness_EncodeOfDecode : decode 0x1000#16 5#32 = .op (.wrCtrl 5#32) ∧
    decode 0x3008#16 5#32 = .op .rdCnt := by decide

theorem test_witness_ReservedWordsAreRefused : ReservedWord 0xC000#16 ∧ ReservedWord 0x3808#16 ∧
    ReservedWord 0x4030#16 ∧ ReservedWord 0x8000#16 ∧ ¬ ReservedWord 0x4021#16 := by
  refine ⟨?_, ?_, ?_, ?_, ?_⟩ <;> decide

/-- rd.w 0x14, wr.w CNT and rd.b 0x04 are not legal; rd.w CNT, wr.w CTRL and rd.b COL+7 are. -/
theorem test_witness_AssemblyLinesMeanTheirOperations :
    ¬ LegalAccess ⟨.read, .b32, 0x14#8⟩ ∧ ¬ LegalAccess ⟨.write 0#32, .b32, 0x08#8⟩ ∧
    ¬ LegalAccess ⟨.read, .b8, 0x04#8⟩ ∧ LegalAccess ⟨.read, .b32, 0x08#8⟩ ∧
    LegalAccess ⟨.write 0#32, .b32, 0x00#8⟩ ∧ LegalAccess ⟨.read, .b8, 0x27#8⟩ := by
  refine ⟨?_, ?_, ?_, ?_, ?_, ?_⟩ <;> decide

theorem test_witness_StepRunsNextWord :
    (∃ s w ws i, State.trace s = w :: ws ∧ decode w.opw w.d = .op i) ∧
    (∃ s w ws r, State.trace s = w :: ws ∧ decode w.opw w.d = .refuse r) ∧
    (around blank).trace = [] :=
  ⟨⟨{ around blank with trace := [⟨0x4000#16, 0#32⟩] }, _, _, .tick, rfl, by decide⟩,
    ⟨{ around blank with trace := [⟨0xC000#16, 0#32⟩] }, _, _, .reservedClass, rfl, by decide⟩, rfl⟩

theorem test_witness_StepKeepsTheInvariant :
    ∃ s t, State.Inv s ∧ step s = .next t ∧ s.block.faults ≠ t.block.faults :=
  ⟨{ around busy with trace := [⟨0x1008#16, 0#32⟩] }, _, by decide, rfl, by decide⟩

theorem test_witness_OnlyNamedWriters :
    ∃ t, exec .svcStop (around busy) = .next t ∧ t.block.interval ≠ (around busy).block.interval ∧
      t.block.stopPend = false := ⟨_, rfl, by decide, rfl⟩

theorem test_witness_HostOperationsIgnoreFlags :
    ∃ t, Instr.rdCnt.agent = .host ∧ Instr.rdCnt ≠ .rdStatus ∧
      exec .rdCnt (around busy) = .next t := ⟨_, rfl, by decide, rfl⟩

theorem test_witness_PinLevelsAreHidden :
    ∃ t, Instr.svcStart.agent ≠ .env ∧ exec .svcStart (around busy) = .next t :=
  ⟨_, by decide, rfl⟩

theorem test_witness_MeasGatesNothing : ∃ t, exec .svcStop (around busy) = .next t := ⟨_, rfl⟩

theorem test_witness_FaultsStopNoAgent : ∃ t,
    exec (.busFault ⟨.read, .b32, 0x14#8⟩) (around busy) = .next t := ⟨_, rfl⟩

theorem test_witness_OneRecordPerBusFault : ∃ t,
    runOps [.busFault ⟨.read, .b32, 0x14#8⟩, .tick] (around busy) = .next t := ⟨_, rfl⟩

theorem test_witness_OneRecordPerBusFault_clean : ∃ t, runOps [.tick] (around busy) = .next t ∧
    (around busy).NoFault ∧ ∀ i ∈ [Instr.tick], isBusFault i = false := ⟨_, rfl, rfl, by decide⟩

theorem test_witness_TickIncrementsCounter : Config.hardware.Legal ∧
    (around { blank with cnt := 0xFFFFFFFF#32 }).block.cnt.toNat =
      2 ^ Config.hardware.cntWidth - 1 := by decide

theorem test_witness_CounterCountsTicks : ∃ t, (around busy).cfg.Legal ∧
    FitsW (around busy).cfg (around busy).block.cnt ∧
    runOps [.tick, .rdCnt, .svcStart, .tick] (around busy) = .next t :=
  ⟨_, by decide, by decide, rfl⟩

/-- The operations of a fair execution: both services, then ticks for ever. -/
def fairOp (n : Nat) : Instr :=
  match n with
  | 0 => .svcStart
  | 1 => .svcStop
  | _ + 2 => .tick

/-- Its states. -/
def fairState (n : Nat) : State :=
  match n with
  | 0 => around busy
  | k + 1 => (nextOf (exec (fairOp k) (fairState k))).getD (fairState k)

theorem fair_isExecution : IsExecution fairState fairOp := by
  intro n
  match n with
  | 0 => rfl
  | 1 => rfl
  | _ + 2 => rfl

theorem fair_flags (n : Nat) : (fairState (n + 2)).block.startPend = false ∧
    (fairState (n + 2)).block.stopPend = false := by
  induction n with
  | zero => exact ⟨rfl, rfl⟩
  | succ k ih => exact ih

theorem test_witness_PendingFlagsAreServiced : IsExecution fairState fairOp ∧
    WeaklyFair fairState fairOp ∧ (fairState 0).cfg.svcOrder = .any ∧
    (fairState 0).block.startPend = true ∧ (fairState 0).block.stopPend = true := by
  refine ⟨fair_isExecution, ⟨fun n h => ?_, fun n h => ?_⟩, rfl, rfl, rfl⟩
  · exact absurd (h (n + 2) (by omega)).1 (by simp [fair_flags n])
  · exact absurd (h (n + 2) (by omega)).1 (by simp [fair_flags n])

theorem test_witness_CounterReachesEveryValue : IsExecution fairState fairOp ∧
    ClockTicks fairOp ∧ (fairState 0).cfg.Legal ∧
    FitsW (fairState 0).cfg (fairState 0).block.cnt ∧ 0 < 2 ^ (fairState 0).cfg.cntWidth :=
  ⟨fair_isExecution, fun n => ⟨n + 2, by omega, rfl⟩, by decide, by decide, by decide⟩

/-- The levels interleaved, with edges after them, and a run that completes. -/
theorem test_witness_DrawsAreForgotten :
    [Instr.tick, .pinB false, .pinA true, .pinA false, .pinB true].find? isPinA =
        some (.pinA true) ∧
      [Instr.tick, .pinB false, .pinA true, .pinA false, .pinB true].find? isPinB =
        some (.pinB false) ∧
      ∃ t, runOps [.tick, .pinB false, .pinA true, .pinA false, .pinB true] (around busy) =
        .next t := ⟨by decide, by decide, _, rfl⟩

/-- R265's own case, with operations in all three places. -/
theorem test_witness_DrawsAreForgotten_cycle :
    (∀ i ∈ [Instr.tick, .svcStart] ++ [.svcStop] ++ [.rdCnt], i.agent ≠ .env) ∧
      ∃ t, runOps ([.pinA true] ++ [.tick, .svcStart] ++ [.pinA false] ++ [.svcStop] ++
        [.pinB false] ++ [.rdCnt] ++ [.pinB true]) (around busy) = .next t :=
  ⟨by decide, _, rfl⟩

theorem test_witness_StartServiceCapturesCounter : (around busy).StartEnabled ∧
    ¬ (around blank).StartEnabled := by decide

theorem test_witness_StopServiceMeasuresAndEncodes : (around busy).cfg.Legal ∧
    (around busy).StopEnabled ∧ ¬ (around blank).StopEnabled := by decide

theorem test_witness_ServiceOrderTable : ∀ t, exec .svcStart (around blank) ≠ .next t ∧
    exec .svcStop (around blank) ≠ .next t := by
  intro t
  constructor <;> (intro h; cases h)

theorem test_witness_EnablesGateNoService : ∃ t u, Instr.svcStop.agent = .svc ∧
    exec (.wrCtrl 0#32) (around busy) = .next t ∧ exec .svcStop (around busy) = .next u :=
  ⟨_, _, rfl, rfl, rfl⟩

theorem test_witness_IntervalWrapsOnce : ∃ t, (around busy).Inv ∧
    exec .svcStop (around busy) = .next t ∧
    (around busy).block.startTick.toNat ≤ (around busy).block.cnt.toNat :=
  ⟨_, by decide, rfl, by decide⟩

/-- V48's state, and a stop with no start since reset. -/
theorem test_witness_IntervalWrapsOnce_wrapped :
    (∃ t, (around { busy with cnt := 5#32, startTick := 10#32 }).Inv ∧
      exec .svcStop (around { busy with cnt := 5#32, startTick := 10#32 }) = .next t) ∧
    ∃ t, (around { busy with startTick := 0#32 }).Inv ∧
      exec .svcStop (around { busy with startTick := 0#32 }) = .next t :=
  ⟨⟨_, by decide, rfl⟩, ⟨_, by decide, rfl⟩⟩

theorem test_witness_ServiceLatencyCountsIn : ∃ t, (around busy).cfg.Legal ∧
    FitsW (around busy).cfg (around busy).block.cnt ∧ Instr.svcStart ∉ [Instr.tick, .rdCnt] ∧
    runOps (.pinA true :: .pinA false :: [.tick, .rdCnt] ++ [.svcStart]) (around busy) = .next t :=
  ⟨_, by decide, by decide, by decide, rfl⟩

theorem test_witness_BothPendingOrders : (around busy).cfg.Legal ∧
    (around busy).cfg.svcOrder = .any ∧ (around busy).block.startPend = true ∧
    (around busy).block.stopPend = true := by decide

theorem test_witness_MeasureGivesTicksModWidth :
    (around { busy with stopPend := false }).cfg.Legal ∧
    FitsW Config.hardware busy.cnt ∧ busy.startEn = true ∧ busy.stopEn = true ∧
    ({ busy with stopPend := false } : Block).stopPend = false := by decide

theorem test_witness_ExactDigitsShown : ∃ t, (around busy).cfg.Legal ∧
    (around busy).cfg.numMode = .exact ∧ exec .svcStop (around busy) = .next t :=
  ⟨_, by decide, rfl, rfl⟩

theorem test_witness_Binary32DigitsShown : ∃ t, floatConfig.Legal ∧
    floatConfig.numMode = .binary32 ∧
    exec .svcStop ⟨busy, floatConfig, none, []⟩ = .next t := ⟨_, by decide, rfl, rfl⟩

theorem test_witness_FirstDigitRange : Config.hardware.fCnt = 2 ^ 15 := by decide

/-- V10: I = 240300 shows 7, 3, 3, 3. -/
theorem test_witness_DigitThreeIsNeverShifted :
    ∃ t, (around { busy with cnt := 240300#32, startTick := 0#32 }).cfg.Legal ∧
      exec .svcStop (around { busy with cnt := 240300#32, startTick := 0#32 }) = .next t ∧
      (digits .exact (normalise Config.hardware t.block.interval)).slot 1 = 3 :=
  ⟨_, by decide, rfl, by decide⟩

/-- V11, I = 327680 (value 10), and V5, I = 32767. -/
theorem test_witness_OutOfRangeFirstIsBlank :
    (∃ t, (around { busy with cnt := 327680#32, startTick := 0#32 }).cfg.glyph = Config.refGlyph ∧
      exec .svcStop (around { busy with cnt := 327680#32, startTick := 0#32 }) = .next t ∧
      10 * Config.hardware.fCnt ≤ t.block.interval.toNat) ∧
    ∃ t, exec .svcStop (around { busy with cnt := 32767#32, startTick := 0#32 }) = .next t ∧
      ¬ 10 * Config.hardware.fCnt ≤ t.block.interval.toNat :=
  ⟨⟨_, rfl, rfl, by decide⟩, ⟨_, rfl, by decide⟩⟩

theorem test_witness_EncoderIgnoresOldBuffer :
    ∃ t t', (around busy).cfg = (around { busy with col := frameV1 }).cfg ∧
      exec .svcStop (around busy) = .next t ∧
      exec .svcStop (around { busy with col := frameV1 }) = .next t' ∧
      t.block.interval = t'.block.interval := ⟨_, _, rfl, rfl, rfl, rfl⟩

/-- A tie of RNE32: 2^24 + 1 lies half way between 2^24 and 2^24 + 2. -/
theorem test_witness_Binary32RoundsToNearestEven :
    0 < (Frac.den ⟨16777217, 1⟩) ∧ (rne32 ⟨16777217, 1⟩).floor ≠ 16777218 := by decide

theorem test_witness_ExactEqualsBinary64 : Config.hardware.fCnt = 2 ^ 15 ∧
    Config.hardware.numMode = .exact ∧
    ∃ v, v = rne64 ((rne64 ⟨(40#32).toNat, 1⟩).div (rne64 ⟨Config.hardware.fCnt, 1⟩)) ∧
      1000 ∈ [10, 100, 1000] := ⟨rfl, rfl, _, rfl, by decide⟩

theorem test_witness_CounterAndCaptureReads : (around busy).Inv ∧
    (⟨busy, { Config.hardware with cntWidth := 8 }, none, []⟩ : State).Inv := by decide

theorem test_witness_AccessesHaveNoSideEffects : isRead .rdStatus = true ∧
    ∃ t, exec (.busFault ⟨.read, .b8, 0x04#8⟩) (around busy) = .next t := ⟨rfl, _, rfl⟩

theorem test_witness_ReservedBitsReadZero : (around busy).Inv ∧
    Reg.interval ∈ [Reg.cnt, .startTick, .interval] := by decide

theorem test_witness_IllegalAccessesAreRecorded : ¬ LegalAccess ⟨.read, .b8, 0x28#8⟩ ∧
    LegalAccess ⟨.read, .b8, 0x27#8⟩ := by decide

theorem test_witness_ColumnsAreOfTheLastStop : ∃ t, Instr.svcStop ∉ [Instr.rdColb 0#3, .tick] ∧
    runOps ([.tick] ++ [.svcStop] ++ [.rdColb 0#3, .tick]) (around busy) = .next t :=
  ⟨_, by decide, rfl⟩

theorem test_witness_ConsistentFrame :
    ∃ t, (∀ i ∈ [Instr.rdColbufLo, .pinB true, .rdColbufHi], isWrCtrl i = false) ∧
      runOps [.rdColbufLo, .pinB true, .rdColbufHi]
        (around { busy with stopEn := false, stopPend := false }) = .next t := ⟨_, by decide, rfl⟩

end Sys2Proof.Tests
end

section
/-! PROOF of O11. What a step can do, said once, and the invariant kept by every operation. -/

namespace Sys2Proof.Machine

/-- A step that answers a next state takes the first word of the trace, which the decoder reads as
an operation (R88). -/
theorem step_next {s t : State} (h : step s = .next t) :
    ∃ w ws i, s.trace = w :: ws ∧ decode w.opw w.d = .op i ∧ exec i (s.setTrace ws) = .next t := by
  cases hw : s.trace with
  | nil => simp [step, nextWord_nil hw] at h
  | cons w ws =>
    have hrun : runWord w (s.setTrace ws) = .next t := by simpa [step, State.nextWord, hw] using h
    cases hd : decode w.opw w.d with
    | op i => exact ⟨w, ws, i, rfl, hd, runWord_of_decode hd _ ▸ hrun⟩
    | refuse r => simp [runWord, hd] at hrun

/-- The invariant reads only the parameters, the three W-bit registers and the fault records. -/
theorem State.Inv.congr {s t : State} (hs : s.Inv) (hcfg : t.cfg = s.cfg)
    (hcnt : t.block.cnt = s.block.cnt) (hstart : t.block.startTick = s.block.startTick)
    (hint : t.block.interval = s.block.interval) (hfaults : t.block.faults = s.block.faults) :
    t.Inv := by
  simpa only [State.Inv, hcfg, hcnt, hstart, hint, hfaults] using hs

/-- A bus response is no part of the invariant (R56). -/
theorem State.Inv.respond {s : State} (hs : s.Inv) (r : BusResponse) : (s.respond r).Inv :=
  hs.congr rfl rfl rfl rfl rfl

/-- A wrapped value may be written into CNT (R14, R100). -/
theorem State.Inv.setCnt_wrapW {s : State} (hs : s.Inv) (x : Int) :
    (s.setBlock (s.block.setCnt (wrapW s.cfg x))).Inv := by
  obtain ⟨hlegal, -, hstart, hint, hfaults⟩ := hs
  exact ⟨hlegal, wrapW_lt hlegal.2.1 x, hstart, hint, hfaults⟩

/-- SVC_START copies CNT, which is within its width, into START_TICK (R116). -/
theorem State.Inv.captureStart {s : State} (hs : s.Inv) :
    (s.setBlock s.block.captureStart).Inv := by
  obtain ⟨hlegal, hcnt, -, hint, hfaults⟩ := hs
  exact ⟨hlegal, hcnt, hcnt, hint, hfaults⟩

/-- SVC_STOP writes the measured interval, which is reduced mod 2^W (R117, R121). -/
theorem State.Inv.latchStop_measured {s : State} (hs : s.Inv) (buf : Vector Byte 8) :
    (s.setBlock (s.block.latchStop s.measured buf)).Inv := by
  obtain ⟨hlegal, hcnt, hstart, -, hfaults⟩ := hs
  exact ⟨hlegal, hcnt, hstart, wrapW_lt hlegal.2.1 _, hfaults⟩

/-- A raised fault is recorded with the code its access raises (R221, R223). -/
theorem State.Inv.raiseFault {s : State} (hs : s.Inv) {code : FaultCode} {a : Access}
    (hcode : a.faultCode = some code) : (s.raiseFault code a).Inv := by
  obtain ⟨hlegal, hcnt, hstart, hint, hfaults⟩ := hs
  refine ⟨hlegal, hcnt, hstart, hint, fun r hr => ?_⟩
  rw [State.raiseFault_block, Block.addFault_faults, List.mem_append, List.mem_singleton] at hr
  obtain hold | rfl := hr
  · exact hfaults r hold
  · exact hcode

/-- Every operation that completes keeps the invariant. -/
theorem exec_keeps_inv {i : Instr} {s t : State} (hs : s.Inv) (h : exec i s = .next t) : t.Inv := by
  cases i with
  | tick => cases h; exact hs.setCnt_wrapW _
  | pinA lvl => cases h; exact hs.congr rfl rfl rfl rfl rfl
  | pinB lvl => cases h; exact hs.congr rfl rfl rfl rfl rfl
  | svcStart =>
    obtain ⟨-, rfl⟩ := execSvcStart_next h
    exact hs.captureStart
  | svcStop =>
    obtain ⟨-, rfl⟩ := execSvcStop_next h
    exact hs.latchStop_measured _
  | wrCtrl d => cases h; exact hs.congr rfl rfl rfl rfl rfl
  | busFault a =>
    obtain ⟨code, hcode, rfl⟩ := execBusFault_next h
    exact hs.raiseFault hcode
  | rdCtrl | rdStatus | rdCnt | rdStartTick | rdInterval | rdColbufLo | rdColbufHi | rdColb k =>
    cases h; exact hs.respond _

/-- Settles O11: the step takes one operation, in a state that differs only in its trace, and every
operation keeps the invariant. -/
theorem stepKeepsTheInvariant : Obligations.StepKeepsTheInvariant := by
  intro s t hs h
  obtain ⟨w, ws, i, -, -, hexec⟩ := step_next h
  exact exec_keeps_inv (hs.congr rfl rfl rfl rfl rfl : (s.setTrace ws).Inv) hexec

end Sys2Proof.Machine
end

section
/-! PROOF of O43. The rounding of R14: what a fraction stands for, its exponent, its nearest
integer, and from these the rounding to any precision, which RNE32 is one case of. -/

namespace Sys2Proof.Machine

/-! Fractions and the rationals they stand for. -/

@[simp] theorem Frac.toRat_ofNat (n : Nat) : (Frac.ofNat n).toRat = n := by
  simp [Frac.toRat, Frac.ofNat]

theorem Frac.toRat_divPow2 (q : Frac) (e : Int) : (q.divPow2 e).toRat = q.toRat / (2 : ℚ) ^ e := by
  cases e with
  | ofNat k => simp [Frac.divPow2, Frac.toRat, div_div]
  | negSucc k => simp [Frac.divPow2, Frac.toRat, zpow_negSucc, div_mul_eq_mul_div]

theorem Frac.divPow2_den_pos {q : Frac} (hq : 0 < q.den) (e : Int) : 0 < (q.divPow2 e).den := by
  cases e with
  | ofNat k => exact Nat.mul_pos hq (Nat.two_pow_pos k)
  | negSucc k => exact hq

theorem Frac.one_le_toRat_iff {q : Frac} (hq : 0 < q.den) : 1 ≤ q.toRat ↔ q.den ≤ q.num := by
  rw [Frac.toRat, one_le_div (by exact_mod_cast hq), Nat.cast_le]

/-! The exponent: the power of two at or below a fraction. -/

/-- The leading power of two of a natural number, in the rationals. -/
theorem zpow_log2_bounds {n : Nat} (hn : n ≠ 0) :
    (2 : ℚ) ^ (n.log2 : Int) ≤ n ∧ (n : ℚ) < 2 ^ ((n.log2 : Int) + 1) := by
  have hlo := Nat.log2_self_le hn
  have hhi := Nat.lt_log2_self (n := n)
  exact ⟨by exact_mod_cast hlo, by exact_mod_cast hhi⟩

/-- The quotient of the leading powers of two is at most one too large. -/
theorem Frac.log2_sub_log2_bounds {q : Frac} (hnum : q.num ≠ 0) (hq : 0 < q.den) :
    (2 : ℚ) ^ ((q.num.log2 : Int) - q.den.log2 - 1) ≤ q.toRat ∧
      q.toRat < 2 ^ ((q.num.log2 : Int) - q.den.log2 + 1) := by
  obtain ⟨hnlo, hnhi⟩ := zpow_log2_bounds hnum
  obtain ⟨hdlo, hdhi⟩ := zpow_log2_bounds hq.ne'
  have hden : (0 : ℚ) < q.den := by exact_mod_cast hq
  constructor
  · calc (2 : ℚ) ^ ((q.num.log2 : Int) - q.den.log2 - 1)
        = 2 ^ (q.num.log2 : Int) / 2 ^ ((q.den.log2 : Int) + 1) := by
          rw [← zpow_sub₀ two_ne_zero, sub_sub]
      _ ≤ q.toRat := div_le_div₀ (by positivity) hnlo hden hdhi.le
  · calc q.toRat < 2 ^ ((q.num.log2 : Int) + 1) / 2 ^ (q.den.log2 : Int) :=
          div_lt_div₀ hnhi hdlo (by positivity) (by positivity)
      _ = 2 ^ ((q.num.log2 : Int) - q.den.log2 + 1) := by
          rw [← zpow_sub₀ two_ne_zero, sub_add_eq_add_sub]

/-- A positive fraction lies in [2^e, 2^(e+1)) for its exponent e. -/
theorem Frac.exponent_bounds {q : Frac} (hnum : q.num ≠ 0) (hq : 0 < q.den) :
    (2 : ℚ) ^ q.exponent ≤ q.toRat ∧ q.toRat < 2 ^ (q.exponent + 1) := by
  obtain ⟨hlo, hhi⟩ := q.log2_sub_log2_bounds hnum hq
  have htest (e : Int) : (q.divPow2 e).den ≤ (q.divPow2 e).num ↔ (2 : ℚ) ^ e ≤ q.toRat := by
    rw [← Frac.one_le_toRat_iff (Frac.divPow2_den_pos hq e), Frac.toRat_divPow2,
      one_le_div (by positivity)]
  simp only [Frac.exponent, htest]
  split
  · next hle => exact ⟨hle, hhi⟩
  · next hnle => exact ⟨hlo, by simpa using hnle⟩

/-! The nearest integer. -/

/-- As an approximation of x, the value r of significand s beats v: v is no nearer, and where a
different v is as near, s is even (R14). -/
def Beats (x r : ℚ) (s : Nat) (v : ℚ) : Prop :=
  |r - x| ≤ |v - x| ∧ (|r - x| = |v - x| → v ≠ r → s % 2 = 0)

/-- Scaling by a positive factor keeps the order of the distances. -/
theorem Beats.mul_right {x r v : ℚ} {s : Nat} (h : Beats x r s v) {c : ℚ} (hc : 0 < c) :
    Beats (x * c) (r * c) s (v * c) := by
  simpa only [Beats, ← sub_mul, abs_mul, abs_of_pos hc, mul_le_mul_iff_left₀ hc,
    mul_left_inj' hc.ne', ne_eq] using h

/-- The nearest integer is at most half away, and where it is half away it is even. -/
theorem Frac.nearest_within_half {q : Frac} (hq : 0 < q.den) :
    |(q.nearest : ℚ) - q.toRat| ≤ 1 / 2 ∧
      (|(q.nearest : ℚ) - q.toRat| = 1 / 2 → q.nearest % 2 = 0) := by
  have hden : (0 : ℚ) < q.den := by exact_mod_cast hq
  obtain ⟨f, hf⟩ : ∃ f : ℚ, f = (q.num % q.den : Nat) / (q.den : ℚ) := ⟨_, rfl⟩
  have hvalue : q.toRat = (q.num / q.den : Nat) + f := by
    rw [hf, Frac.toRat, div_eq_iff hden.ne', add_mul, div_mul_cancel₀ _ hden.ne']
    exact_mod_cast (Nat.div_add_mod' q.num q.den).symm
  have hf0 : 0 ≤ f := by rw [hf]; positivity
  have hf1 : f < 1 := by rw [hf, div_lt_one hden]; exact_mod_cast Nat.mod_lt q.num hq
  have hlt : 2 * (q.num % q.den) < q.den ↔ 2 * f < 1 := by
    rw [hf, mul_div_assoc', div_lt_one hden]
    norm_cast
  have hgt : q.den < 2 * (q.num % q.den) ↔ 1 < 2 * f := by
    rw [hf, mul_div_assoc', one_lt_div hden]
    norm_cast
  have hdown : |((q.num / q.den : Nat) : ℚ) - q.toRat| = f := by
    rw [hvalue, sub_add_cancel_left, abs_neg, abs_of_nonneg hf0]
  have hup : |((q.num / q.den + 1 : Nat) : ℚ) - q.toRat| = 1 - f := by
    rw [hvalue, Nat.cast_add_one, add_sub_add_left_eq_sub, abs_of_pos (by linarith)]
  simp only [Frac.nearest, hlt, hgt]
  split_ifs with hlow hhigh heven
  · rw [hdown]; exact ⟨by linarith, fun h => by linarith⟩
  · rw [hup]; exact ⟨by linarith, fun h => by linarith⟩
  · rw [hdown]; exact ⟨by linarith, fun _ => heven⟩
  · rw [hup]; exact ⟨by linarith, fun _ => by omega⟩

/-- No integer is nearer than the nearest one, and a tie goes to an even one. -/
theorem Frac.nearest_beats {q : Frac} (hq : 0 < q.den) (n : Nat) :
    Beats q.toRat q.nearest q.nearest n := by
  obtain ⟨hhalf, heven⟩ := Frac.nearest_within_half hq
  by_cases hn : n = q.nearest
  · exact ⟨by rw [hn], fun _ hne => absurd (congrArg _ hn) hne⟩
  have hgap : (1 : ℚ) ≤ |(n : ℚ) - q.nearest| := by
    have hne : (n : ℤ) - q.nearest ≠ 0 := by omega
    exact_mod_cast Int.one_le_abs hne
  have htri := abs_sub_le (n : ℚ) q.toRat q.nearest
  rw [abs_sub_comm q.toRat] at htri
  exact ⟨by linarith, fun htie _ => heven (by linarith)⟩

/-! Rounding to p + 1 significant bits with least exponent eMin. -/

/-- The exponent of the last place to which q is rounded. -/
def Frac.ulpExp (p : Nat) (eMin : Int) (q : Frac) : Int := max (q.exponent - p) eMin

theorem Frac.eMin_le_ulpExp (p : Nat) (eMin : Int) (q : Frac) : eMin ≤ q.ulpExp p eMin :=
  le_max_right ..

/-- The significand q is rounded to: the nearest integer to q in units of the last place. -/
def Frac.significand (p : Nat) (eMin : Int) (q : Frac) : Nat :=
  (q.divPow2 (q.ulpExp p eMin)).nearest

theorem roundBinary_toRat {q : Frac} (hnum : q.num ≠ 0) (p : Nat) (eMin : Int) :
    (roundBinary (p + 1) eMin q).toRat = q.significand p eMin * (2 : ℚ) ^ q.ulpExp p eMin := by
  simp [roundBinary, hnum, Frac.toRat_divPow2, Frac.ulpExp, Frac.significand, zpow_neg]

/-- The significand is the integer nearest to q in units of the last place. -/
theorem Frac.significand_within_half {q : Frac} (hq : 0 < q.den) (p : Nat) (eMin : Int) :
    |(q.significand p eMin : ℚ) - q.toRat / (2 : ℚ) ^ q.ulpExp p eMin| ≤ 1 / 2 := by
  rw [← Frac.toRat_divPow2]
  exact (Frac.nearest_within_half (Frac.divPow2_den_pos hq _)).1

section
variable {q : Frac} (hnum : q.num ≠ 0) (hq : 0 < q.den) (p : Nat) (eMin : Int)
include hnum hq

/-- What q is rounded to beats every multiple of the unit of the last place. -/
theorem roundBinary_beats_multiple (n : Nat) :
    Beats q.toRat (roundBinary (p + 1) eMin q).toRat (q.significand p eMin)
      (n * (2 : ℚ) ^ q.ulpExp p eMin) := by
  have hpos : (0 : ℚ) < 2 ^ q.ulpExp p eMin := by positivity
  have h := (Frac.nearest_beats (Frac.divPow2_den_pos hq (q.ulpExp p eMin)) n).mul_right hpos
  rw [Frac.toRat_divPow2, div_mul_cancel₀ _ hpos.ne'] at h
  rwa [roundBinary_toRat hnum]

/-- In units of the last place q is below 2^(p+1). -/
theorem Frac.div_ulp_lt : q.toRat / (2 : ℚ) ^ q.ulpExp p eMin < 2 ^ (p + 1) := by
  have hexp : q.exponent + 1 ≤ (p + 1 : Nat) + q.ulpExp p eMin := by
    rw [Frac.ulpExp]
    omega
  rw [div_lt_iff₀ (by positivity), ← zpow_natCast, ← zpow_add₀ two_ne_zero]
  exact (Frac.exponent_bounds hnum hq).2.trans_le (zpow_le_zpow_right₀ one_le_two hexp)

/-- Above the least exponent q is at least 2^p in units of the last place. -/
theorem Frac.le_div_ulp (he : q.ulpExp p eMin ≠ eMin) :
    (2 : ℚ) ^ p ≤ q.toRat / (2 : ℚ) ^ q.ulpExp p eMin := by
  have hexp : (p : Int) + q.ulpExp p eMin = q.exponent := by
    rw [Frac.ulpExp] at he ⊢
    omega
  rw [le_div_iff₀ (by positivity), ← zpow_natCast, ← zpow_add₀ two_ne_zero, hexp]
  exact (Frac.exponent_bounds hnum hq).1

theorem Frac.significand_le : q.significand p eMin ≤ 2 ^ (p + 1) := by
  have hhalf := (abs_le.mp (Frac.significand_within_half hq p eMin)).2
  have hlt := Frac.div_ulp_lt hnum hq p eMin
  have hsucc : (q.significand p eMin : ℚ) < (2 ^ (p + 1) + 1 : Nat) := by push_cast; linarith
  exact Nat.lt_succ_iff.mp (by exact_mod_cast hsucc)

theorem Frac.le_significand (he : q.ulpExp p eMin ≠ eMin) : 2 ^ p ≤ q.significand p eMin := by
  have hhalf := (abs_le.mp (Frac.significand_within_half hq p eMin)).1
  have hle := Frac.le_div_ulp hnum hq p eMin he
  have hsucc : ((2 ^ p : Nat) : ℚ) < (q.significand p eMin + 1 : Nat) := by push_cast; linarith
  exact Nat.lt_succ_iff.mp (by exact_mod_cast hsucc)

/-- A value with a smaller exponent than the last place is below 2^p units of the last place, and
those are not above q: it is farther from q than they are. -/
theorem roundBinary_beats_finer {m' : Nat} {e' : Int} (hm' : m' < 2 ^ (p + 1))
    (he' : eMin ≤ e') (hfine : e' < q.ulpExp p eMin) :
    Beats q.toRat (roundBinary (p + 1) eMin q).toRat (q.significand p eMin)
      (m' * (2 : ℚ) ^ e') := by
  have hbelow : (m' : ℚ) * 2 ^ e' < 2 ^ p * 2 ^ q.ulpExp p eMin :=
    calc (m' : ℚ) * 2 ^ e' < 2 ^ (p + 1) * 2 ^ e' := by gcongr; exact_mod_cast hm'
      _ = 2 ^ p * 2 ^ (e' + 1) := by rw [zpow_add_one₀ two_ne_zero]; ring
      _ ≤ 2 ^ p * 2 ^ q.ulpExp p eMin := by gcongr <;> [norm_num; omega]
  have habove : (2 : ℚ) ^ p * 2 ^ q.ulpExp p eMin ≤ q.toRat :=
    (le_div_iff₀ (by positivity)).mp (Frac.le_div_ulp hnum hq p eMin (by omega))
  have hnear := (roundBinary_beats_multiple hnum hq p eMin (2 ^ p)).1
  push_cast at hnear
  rw [abs_of_nonpos (sub_nonpos.mpr habove)] at hnear
  have hfar := neg_le_abs ((m' : ℚ) * 2 ^ e' - q.toRat)
  exact ⟨by linarith, fun htie => by linarith⟩

/-- No value of at most p + 1 significant bits is nearer to q than what it is rounded to. -/
theorem roundBinary_beats {m' : Nat} {e' : Int} (hm' : m' < 2 ^ (p + 1)) (he' : eMin ≤ e') :
    Beats q.toRat (roundBinary (p + 1) eMin q).toRat (q.significand p eMin)
      (m' * (2 : ℚ) ^ e') := by
  rcases lt_or_ge e' (q.ulpExp p eMin) with hfine | hcoarse
  · exact roundBinary_beats_finer hnum hq p eMin hm' he' hfine
  · obtain ⟨k, rfl⟩ := Int.le.dest hcoarse
    have h := roundBinary_beats_multiple hnum hq p eMin (m' * 2 ^ k)
    rwa [Nat.cast_mul, Nat.cast_pow, Nat.cast_ofNat, mul_assoc, ← zpow_natCast,
      ← zpow_add₀ two_ne_zero, add_comm (k : Int)] at h

/-- The rounded value in normal form: a significand that was rounded up to 2^(p+1) is 2^p with the
next exponent. An even significand stays even where there is a fraction bit. -/
theorem roundBinary_normalForm (hp : p ≠ 0) : ∃ (m : Nat) (e : Int),
    m < 2 ^ (p + 1) ∧ eMin ≤ e ∧ (2 ^ p ≤ m ∨ e = eMin) ∧
      (roundBinary (p + 1) eMin q).toRat = m * (2 : ℚ) ^ e ∧
      (q.significand p eMin % 2 = 0 → m % 2 = 0) := by
  have hmin := q.eMin_le_ulpExp p eMin
  rcases (Frac.significand_le hnum hq p eMin).lt_or_eq with hlt | heq
  · exact ⟨_, _, hlt, hmin,
      or_iff_not_imp_right.mpr (Frac.le_significand hnum hq p eMin),
      roundBinary_toRat hnum p eMin, id⟩
  · refine ⟨2 ^ p, q.ulpExp p eMin + 1, Nat.pow_lt_pow_succ one_lt_two, by omega, .inl le_rfl, ?_,
      fun _ => Nat.mod_eq_zero_of_dvd (dvd_pow_self 2 hp)⟩
    rw [roundBinary_toRat hnum, heq, zpow_add_one₀ two_ne_zero]
    push_cast
    ring

end

/-- Rounding to p + 1 significant bits gives a value in normal form that beats every value of at
most as many bits. -/
theorem roundBinary_nearest_even {q : Frac} (hq : 0 < q.den) {p : Nat} (hp : p ≠ 0) (eMin : Int) :
    ∃ (m : Nat) (e : Int), m < 2 ^ (p + 1) ∧ eMin ≤ e ∧ (2 ^ p ≤ m ∨ e = eMin) ∧
      (roundBinary (p + 1) eMin q).toRat = m * (2 : ℚ) ^ e ∧
      ∀ (m' : Nat) (e' : Int), m' < 2 ^ (p + 1) → eMin ≤ e' →
        Beats q.toRat (roundBinary (p + 1) eMin q).toRat m (m' * (2 : ℚ) ^ e') := by
  by_cases hnum : q.num = 0
  · have hzero : q.toRat = 0 := by simp [Frac.toRat, hnum]
    have hround : (roundBinary (p + 1) eMin q).toRat = 0 := by simp [roundBinary, hnum]
    refine ⟨0, eMin, Nat.two_pow_pos _, le_rfl, .inr rfl, by simp [hround], fun m' e' _ _ => ?_⟩
    refine ⟨?_, fun _ _ => rfl⟩
    rw [hzero, hround, sub_zero, abs_zero]
    exact abs_nonneg _
  · obtain ⟨m, e, hm, he, hnormal, hvalue, heven⟩ := roundBinary_normalForm hnum hq p eMin hp
    refine ⟨m, e, hm, he, hnormal, hvalue, fun m' e' hm' he' => ?_⟩
    obtain ⟨hnear, htie⟩ := roundBinary_beats hnum hq p eMin hm' he'
    exact ⟨hnear, fun h hne => heven (htie h hne)⟩

/-- Settles O43: RNE32 rounds to 24 significant bits with least exponent -149. -/
theorem binary32RoundsToNearestEven : Obligations.Binary32RoundsToNearestEven :=
  fun _ hq => roundBinary_nearest_even hq (p := 23) (by decide) (-149)

end Sys2Proof.Machine
end

section
/-! PROOF of O12. What each operation leaves unchanged, said once for every element of the state. -/

namespace Sys2Proof.Machine

/-- START_PEND after a level event on PIN_A: it was pending, or the event is an enabled falling edge
(R111, R112). -/
@[simp] theorem Block.startPendAfter_eq_true_iff (v : Bool) (b : Block) :
    b.startPendAfter v = true ↔
      b.startPend = true ∨ b.startEn = true ∧ b.lvlA = true ∧ v = false := by
  simp [Block.startPendAfter, fallingEdge, or_comm, and_comm]

/-- STOP_PEND after a level event on PIN_B: it was pending, or the event is an enabled rising edge
(R111, R113). -/
@[simp] theorem Block.stopPendAfter_eq_true_iff (v : Bool) (b : Block) :
    b.stopPendAfter v = true ↔
      b.stopPend = true ∨ b.stopEn = true ∧ b.lvlB = false ∧ v = true := by
  simp [Block.stopPendAfter, risingEdge, or_comm, and_comm]

/-- What the operation i may change from s to t, one field per element of the state: the column
"written by" of R22, with the set and clear rules of R228. -/
structure Frame (i : Instr) (s t : State) : Prop where
  cnt : i ≠ .tick → t.block.cnt = s.block.cnt
  startTick : i ≠ .svcStart → t.block.startTick = s.block.startTick
  interval : i ≠ .svcStop → t.block.interval = s.block.interval
  col : i ≠ .svcStop → t.block.col = s.block.col
  startEn : isWrCtrl i = false → t.block.startEn = s.block.startEn
  stopEn : isWrCtrl i = false → t.block.stopEn = s.block.stopEn
  startPend_set : s.block.startPend = false → t.block.startPend = true → i = .pinA false
  startPend_clear : s.block.startPend = true → t.block.startPend = false → i = .svcStart
  stopPend_set : s.block.stopPend = false → t.block.stopPend = true → i = .pinB true
  stopPend_clear : s.block.stopPend = true → t.block.stopPend = false → i = .svcStop
  meas_set : s.block.meas = false → t.block.meas = true → i = .svcStart
  meas_clear : s.block.meas = true → t.block.meas = false → i = .svcStop
  lvlA : i ≠ .pinA t.block.lvlA → t.block.lvlA = s.block.lvlA
  lvlB : i ≠ .pinB t.block.lvlB → t.block.lvlB = s.block.lvlB
  faults : isBusFault i = false → t.block.faults = s.block.faults
  cfg : t.cfg = s.cfg
  trace : t.trace = s.trace
  resp : i.agent ≠ .host → t.resp = s.resp

/-- Every operation that completes keeps to its frame. -/
theorem exec_frame {i : Instr} {s t : State} (h : exec i s = .next t) : Frame i s t := by
  cases i with
  | tick => cases h; constructor <;> simp
  | pinA v => cases h; constructor <;> simp_all
  | pinB v => cases h; constructor <;> simp_all
  | svcStart =>
    obtain ⟨-, rfl⟩ := execSvcStart_next h
    constructor <;> simp [Block.captureStart_frame]
  | svcStop =>
    obtain ⟨-, rfl⟩ := execSvcStop_next h
    constructor <;> simp [Block.latchStop_frame]
  | wrCtrl d => cases h; constructor <;> simp [isWrCtrl, Instr.agent]
  | busFault a =>
    obtain ⟨code, -, rfl⟩ := execBusFault_next h
    constructor <;> simp [isBusFault, Instr.agent]
  | rdCtrl | rdStatus | rdCnt | rdStartTick | rdInterval | rdColbufLo | rdColbufHi | rdColb k =>
    cases h; constructor <;> simp [Instr.agent]

/-- Settles O12: the clauses of the frame, those of a single writer in the contrapositive. -/
theorem onlyNamedWriters : Obligations.OnlyNamedWriters := by
  intro i s t h
  have frame := exec_frame h
  exact ⟨not_imp_comm.mp frame.cnt, not_imp_comm.mp frame.startTick,
    not_imp_comm.mp frame.interval, not_imp_comm.mp frame.col,
    not_imp_comm.mp (frame.startEn ∘ eq_false_of_ne_true),
    not_imp_comm.mp (frame.stopEn ∘ eq_false_of_ne_true),
    frame.startPend_set, frame.startPend_clear, frame.stopPend_set, frame.stopPend_clear,
    frame.meas_set, frame.meas_clear, not_imp_comm.mp frame.lvlA, not_imp_comm.mp frame.lvlB,
    not_imp_comm.mp (frame.faults ∘ eq_false_of_ne_true),
    frame.cfg, frame.trace, not_imp_comm.mp frame.resp⟩

end Sys2Proof.Machine
end

section
/-! PROOF of O14, O15, O16 and O30. What an operation does not depend on: it commutes with a change
of the recorded levels, of MEAS, of the recorded faults and, for a service, of the enables. -/

namespace Sys2Proof.Machine

theorem exec_svcStart_of_enabled {s : State} (h : s.startEnabled = true) :
    exec .svcStart s = .next (s.setBlock s.block.captureStart) := by
  rw [exec_svcStart, if_pos h]

theorem exec_svcStop_of_enabled {s : State} (h : s.stopEnabled = true) :
    exec .svcStop s = .next
      (s.setBlock (s.block.latchStop s.measured (enc s.cfg (normalise s.cfg s.measured)))) := by
  rw [exec_svcStop, if_pos h]

theorem exec_busFault_of_code {a : Access} {code : FaultCode} (h : a.faultCode = some code)
    (s : State) : exec (.busFault a) s = .next (s.raiseFault code a) := by
  rw [exec_busFault, h]

/-- Settles O14: no operation but a level event reads a recorded level, nor does the enabling of a
service. -/
theorem pinLevelsAreHidden : Obligations.PinLevelsAreHidden := by
  intro i s t a b hi h
  cases i with
  | pinA v | pinB v => exact absurd rfl hi
  | svcStart =>
    obtain ⟨henabled, rfl⟩ := execSvcStart_next h
    exact exec_svcStart_of_enabled henabled
  | svcStop =>
    obtain ⟨henabled, rfl⟩ := execSvcStop_next h
    exact exec_svcStop_of_enabled henabled
  | busFault acc =>
    obtain ⟨code, hcode, rfl⟩ := execBusFault_next h
    exact exec_busFault_of_code hcode _
  | tick | wrCtrl d | rdCtrl | rdStatus | rdCnt | rdStartTick | rdInterval | rdColbufLo
  | rdColbufHi | rdColb k => cases h; rfl

/-- Settles O15: the two runs differ in MEAS, which each service sets to its own value, and in the
result of RD_STATUS. -/
theorem measGatesNothing : Obligations.MeasGatesNothing := by
  intro i s t m h
  cases i with
  | svcStart =>
    obtain ⟨henabled, rfl⟩ := execSvcStart_next h
    exact ⟨_, exec_svcStart_of_enabled henabled, rfl, fun _ => rfl⟩
  | svcStop =>
    obtain ⟨henabled, rfl⟩ := execSvcStop_next h
    exact ⟨_, exec_svcStop_of_enabled henabled, rfl, fun _ => rfl⟩
  | busFault a =>
    obtain ⟨code, hcode, rfl⟩ := execBusFault_next h
    exact ⟨_, exec_busFault_of_code hcode _, rfl, fun _ => rfl⟩
  | rdStatus => cases h; exact ⟨_, rfl, rfl, fun hne => absurd rfl hne⟩
  | tick | pinA v | pinB v | wrCtrl d | rdCtrl | rdCnt | rdStartTick | rdInterval | rdColbufLo
  | rdColbufHi | rdColb k => cases h; exact ⟨_, rfl, rfl, fun _ => rfl⟩

/-- An operation other than BUS_FAULT does not read the recorded faults (R222). -/
theorem exec_faults_hidden {i : Instr} {s t : State} (hi : isBusFault i = false)
    (h : exec i s = .next t) (fs : List FaultRecord) :
    exec i { s with block := { s.block with faults := fs } } =
      .next { t with block := { t.block with faults := fs } } := by
  cases i with
  | busFault a => cases hi
  | svcStart =>
    obtain ⟨henabled, rfl⟩ := execSvcStart_next h
    exact exec_svcStart_of_enabled henabled
  | svcStop =>
    obtain ⟨henabled, rfl⟩ := execSvcStop_next h
    exact exec_svcStop_of_enabled henabled
  | tick | pinA v | pinB v | wrCtrl d | rdCtrl | rdStatus | rdCnt | rdStartTick | rdInterval
  | rdColbufLo | rdColbufHi | rdColb k => cases h; rfl

/-- Every operation appends to FAULTS, whatever stands there, one record if it is BUS_FAULT and none
otherwise (R32, R222). -/
theorem exec_appends_faults {i : Instr} {s t : State} (h : exec i s = .next t) :
    ∃ new, t.block.faults = s.block.faults ++ new ∧ new.length = (isBusFault i).toNat ∧
      ∀ fs, exec i { s with block := { s.block with faults := fs } } =
        .next { t with block := { t.block with faults := fs ++ new } } := by
  cases hi : isBusFault i with
  | false =>
    refine ⟨[], by simp [(exec_frame h).faults hi], rfl, fun fs => ?_⟩
    simpa only [List.append_nil] using exec_faults_hidden hi h fs
  | true =>
    obtain ⟨a, rfl⟩ : ∃ a, i = .busFault a := by cases i <;> simp_all [isBusFault]
    obtain ⟨code, hcode, rfl⟩ := execBusFault_next h
    exact ⟨[⟨code, a⟩], rfl, rfl, fun _ => exec_busFault_of_code hcode _⟩

/-- Settles O16: the records an operation appends are the same after any other list. -/
theorem faultsStopNoAgent : Obligations.FaultsStopNoAgent := by
  intro i s t fs h
  obtain ⟨new, hnew, -, hexec⟩ := exec_appends_faults h
  exact ⟨new, hnew, hexec fs⟩

/-- The operations of the service engine (R87). -/
theorem agent_eq_svc_iff (i : Instr) : i.agent = .svc ↔ i = .svcStart ∨ i = .svcStop := by
  cases i <;> simp [Instr.agent]

/-- Settles O30: WR_CTRL writes the enables alone, and neither the enabling of a service (R118) nor
its effect reads them. -/
theorem enablesGateNoService : Obligations.EnablesGateNoService := by
  intro s t u d i hi hwrite hserve
  cases hwrite
  obtain rfl | rfl := (agent_eq_svc_iff i).mp hi
  · obtain ⟨henabled, rfl⟩ := execSvcStart_next hserve
    exact ⟨_, exec_svcStart_of_enabled henabled, rfl⟩
  · obtain ⟨henabled, rfl⟩ := execSvcStop_next hserve
    exact ⟨_, exec_svcStop_of_enabled henabled, rfl⟩

end Sys2Proof.Machine
end

section
/-! PROOF of O17 and O53. Runs of a list of operations: cut in two, and an invariant along them. -/

namespace Sys2Proof.Machine

/-- A run of two lists takes the first and then, from where it ends, the second. -/
theorem runOps_append_next {is js : List Instr} {s t : State}
    (h : runOps (is ++ js) s = .next t) :
    ∃ u, runOps is s = .next u ∧ runOps js u = .next t := by
  induction is generalizing s with
  | nil => exact ⟨s, rfl, h⟩
  | cons i is ih =>
    obtain ⟨u, hexec, hrun⟩ := runOps_cons_next h
    rw [runOps_cons hexec]
    exact ih hrun

/-- What each operation of a list keeps, a run of the list keeps. -/
theorem runOps_keeps {P : State → Prop} {is : List Instr} {s t : State}
    (hkeeps : ∀ i ∈ is, ∀ u v, P u → exec i u = .next v → P v) (hs : P s)
    (h : runOps is s = .next t) : P t := by
  induction is generalizing s with
  | nil => cases h; exact hs
  | cons i is ih =>
    obtain ⟨u, hexec, hrun⟩ := runOps_cons_next h
    obtain ⟨hhead, htail⟩ := List.forall_mem_cons.mp hkeeps
    exact ih htail (hhead s u hs hexec) hrun

/-- Along a run FAULTS grows at its end, by one record for each BUS_FAULT (R222). -/
theorem runOps_appends_faults {is : List Instr} {s t : State} (h : runOps is s = .next t) :
    ∃ new, t.block.faults = s.block.faults ++ new ∧ new.length = is.countP isBusFault := by
  induction is generalizing s with
  | nil => cases h; exact ⟨[], by simp, rfl⟩
  | cons i is ih =>
    obtain ⟨u, hexec, hrun⟩ := runOps_cons_next h
    obtain ⟨first, hfirst, hlen, -⟩ := exec_appends_faults hexec
    obtain ⟨rest, hrest, hcount⟩ := ih hrun
    refine ⟨first ++ rest, by rw [hrest, hfirst, List.append_assoc], ?_⟩
    cases hi : isBusFault i <;> simp [hi, hlen, hcount, Nat.add_comm]

/-- Settles O17: a list without a BUS_FAULT appends no record. -/
theorem oneRecordPerBusFault : Obligations.OneRecordPerBusFault := by
  intro is s t h
  obtain ⟨new, hnew, hlen⟩ := runOps_appends_faults h
  refine ⟨new, hnew, hlen, fun hs hnone => ?_⟩
  have hempty : new = [] := by
    rw [← List.length_eq_zero_iff, hlen, List.countP_eq_zero]
    simpa using hnone
  rw [State.NoFault, hnew, hs, hempty, List.append_nil]

/-- Settles O53: the run is cut at the SVC_STOP, and no operation after it writes COL. -/
theorem columnsAreOfTheLastStop : Obligations.ColumnsAreOfTheLastStop := by
  intro before after s t hnoStop h
  obtain ⟨v, hupto, hafter⟩ := runOps_append_next h
  obtain ⟨u, hbefore, hlast⟩ := runOps_append_next hupto
  obtain ⟨v', hstop, hnil⟩ := runOps_cons_next hlast
  cases hnil
  refine ⟨u, v, hbefore, hstop, runOps_keeps (P := (·.block.col = v.block.col)) ?_ rfl hafter⟩
  intro i hi x y hx hexec
  exact ((exec_frame hexec).col (ne_of_mem_of_not_mem hi hnoStop)).trans hx

end Sys2Proof.Machine
end

section
/-! PROOF of O46 and O50. What the host reads: the width of a register's value and the reserved
bits. -/

namespace Sys2Proof.Machine

/-- The bits of a W-bit value from W on are 0. -/
theorem FitsW.getLsbD_eq_false {c : Config} {v : Word} (h : FitsW c v) {i : Nat}
    (hi : c.cntWidth ≤ i) : v.getLsbD i = false :=
  Nat.testBit_lt_two_pow (h.trans_le (Nat.pow_le_pow_right two_pos hi))

/-- Settles O46: each read answers its register, and the invariant bounds the three of them. -/
theorem counterAndCaptureReads : Obligations.CounterAndCaptureReads := by
  intro s hs
  obtain ⟨-, hcnt, hstart, hinterval, -⟩ := hs
  exact ⟨_, _, _, exec_rdCnt s, exec_rdStartTick s, exec_rdInterval s, rfl, rfl, rfl,
    fun i hi => ⟨FitsW.getLsbD_eq_false hcnt hi, FitsW.getLsbD_eq_false hstart hi,
      FitsW.getLsbD_eq_false hinterval hi⟩⟩

/-- CTRL is a two-bit value (R27). -/
theorem Block.ctrlWord_toNat (b : Block) :
    b.ctrlWord.toNat = 2 * b.stopEn.toNat + b.startEn.toNat := by
  rw [Block.ctrlWord]
  generalize b.stopEn = q, b.startEn = p
  revert q p
  decide

/-- STATUS is a three-bit value (R28). -/
theorem Block.statusWord_toNat (b : Block) :
    b.statusWord.toNat = 4 * b.meas.toNat + 2 * b.stopPend.toNat + b.startPend.toNat := by
  rw [Block.statusWord]
  generalize b.meas = m, b.stopPend = q, b.startPend = p
  revert m q p
  decide

/-- A write of D leaves D mod 4 in CTRL (R192). -/
theorem Block.ctrlWord_setCtrl (b : Block) (d : Word) :
    (b.setCtrl (d.getLsbD 0) (d.getLsbD 1)).ctrlWord = BitVec.ofNat 32 (d.toNat % 4) := by
  have hbit (k : Nat) : (d.getLsbD k).toNat = d.toNat / 2 ^ k % 2 := Nat.toNat_testBit ..
  apply BitVec.eq_of_toNat_eq
  rw [Block.ctrlWord_toNat, Block.setCtrl_stopEn, Block.setCtrl_startEn, hbit, hbit,
    BitVec.toNat_ofNat]
  omega

/-- Settles O50: CTRL and STATUS by their values, the W-bit registers by the invariant. -/
theorem reservedBitsReadZero : Obligations.ReservedBitsReadZero := by
  refine ⟨fun b => ⟨?_, ?_⟩, ?_, fun s d => ⟨_, rfl, ?_⟩⟩
  · rw [b.ctrlWord_toNat]
    have := b.stopEn.toNat_le
    have := b.startEn.toNat_le
    omega
  · rw [b.statusWord_toNat]
    have := b.meas.toNat_le
    have := b.stopPend.toNat_le
    have := b.startPend.toNat_le
    omega
  · rintro s ⟨-, hcnt, hstart, hinterval, -⟩ r hr
    fin_cases hr
    · exact hcnt
    · exact hstart
    · exact hinterval
  · exact congrArg (some ∘ BusResponse.result) (s.block.ctrlWord_setCtrl d)

end Sys2Proof.Machine
end

section
/-! PROOF of O9 and O10. The state that reset leaves. -/

namespace Sys2Proof.Machine

/-- This hardware's parameters are ones the spec admits (R7 to R10). -/
theorem hardware_legal : Config.hardware.Legal := by decide

/-- The rows of REF_GLYPH but that of digit 3, by the formula of R166. -/
theorem refGlyph_row (d : Fin 10) (hd : d.val ≠ 3) :
    Config.refGlyph[d].g0.toNat = d.val + 1 ∧
    Config.refGlyph[d].g1.toNat = (if d.val = 1 then 0 else 15 - d.val) ∧
    Config.refGlyph[d].exempt = false := by
  revert d
  decide

/-- Settles O9: the elements by computation, the bytes of REF_GLYPH by the formula of R166. -/
theorem resetValues : Obligations.ResetValues := by
  refine ⟨fun s a b => ?_, rfl, rfl, by decide, rfl, rfl, refGlyph_row⟩
  refine ⟨rfl, rfl, rfl, fun k => Vector.getElem_replicate _, ?_, ?_, rfl, rfl, rfl⟩
  · exact BitVec.eq_of_toNat_eq (Block.ctrlWord_toNat _)
  · exact BitVec.eq_of_toNat_eq (Block.statusWord_toNat _)

/-- Settles O10: the registers are 0 and nothing is recorded. -/
theorem resetMeetsInvariant : Obligations.ResetMeetsInvariant :=
  ⟨hardware_legal, Nat.two_pow_pos _, Nat.two_pow_pos _, Nat.two_pow_pos _,
    fun _ hr => (List.not_mem_nil hr).elim⟩

end Sys2Proof.Machine
end

section
/-! PROOF of O8. Steps of the machine and words taken in order: no operation reads or writes the
trace. -/

namespace Sys2Proof.Machine

/-- What f answers from the next state of an outcome; a stop stays as it is. -/
def andThen {σ φ ρ : Type} (f : σ → Host.Outcome σ φ ρ) (o : Host.Outcome σ φ ρ) :
    Host.Outcome σ φ ρ :=
  match o with
  | .next t => f t
  | .fault r => .fault r
  | .refused r => .refused r

theorem run_succ (M : Host.Core) (k : Nat) (s : M.State) :
    M.run (k + 1) s = andThen (M.run k) (M.step s) := by
  rw [Host.Core.run]
  cases M.step s <;> rfl

theorem core_run_succ (k : Nat) (s : State) :
    core.run (k + 1) s = andThen (core.run k) (step s) := run_succ core k s

theorem runWords_cons (w : TraceWord) (ws : List TraceWord) (s : State) :
    runWords (w :: ws) s = andThen (runWords ws) (runWord w s) := by
  rw [runWords]
  cases runWord w s <;> rfl

/-- No operation reads or writes the trace: with another one the outcome is the same but for it. -/
theorem exec_setTrace (i : Instr) (s : State) (ws : List TraceWord) :
    exec i (s.setTrace ws) = andThen (.next ∘ State.setTrace ws) (exec i s) := by
  cases i with
  | svcStart => rw [exec_svcStart s, apply_ite (andThen _)]; rfl
  | svcStop => rw [exec_svcStop s, apply_ite (andThen _)]; rfl
  | busFault a => rw [exec_busFault, exec_busFault]; cases a.faultCode <;> rfl
  | tick | pinA v | pinB v | wrCtrl d | rdCtrl | rdStatus | rdCnt | rdStartTick | rdInterval
  | rdColbufLo | rdColbufHi | rdColb k => rfl

theorem runWord_setTrace (w : TraceWord) (s : State) (ws : List TraceWord) :
    runWord w (s.setTrace ws) = andThen (.next ∘ State.setTrace ws) (runWord w s) := by
  cases hdecode : decode w.opw w.d with
  | op i => rw [runWord_of_decode hdecode, runWord_of_decode hdecode, exec_setTrace]
  | refuse r => simp only [runWord, hdecode, andThen]

/-- A step takes the first word of the trace, in the state with the rest of it (R88). -/
theorem step_setTrace_cons (w : TraceWord) (ws : List TraceWord) (s : State) :
    step (s.setTrace (w :: ws)) = runWord w (s.setTrace ws) := rfl

/-- Settles O8, by induction on the words taken. -/
theorem stepsRunTheTrace : Obligations.StepsRunTheTrace := by
  intro ws rest s
  induction ws generalizing s with
  | nil => rfl
  | cons w ws ih =>
    rw [List.length_cons, List.cons_append, core_run_succ, step_setTrace_cons, runWords_cons,
      runWord_setTrace, runWord_setTrace]
    cases runWord w s with
    | next u => exact ih u
    | fault r | refused r => rfl

end Sys2Proof.Machine
end

section
/-! PROOF of O47 and O48. What a read answers and what it leaves, and the column bytes in the words
the host reads. -/

namespace Sys2Proof.Machine

/-- A read answers the host a value of the block and changes nothing else (R56, R190). -/
theorem exec_isRead {i : Instr} (hi : isRead i = true) :
    ∃ value : Block → Word, ∀ s, exec i s = .next (s.respond (.result (value s.block))) := by
  cases i with
  | rdCtrl => exact ⟨Block.readReg .ctrl, exec_rdCtrl⟩
  | rdStatus => exact ⟨Block.readReg .status, exec_rdStatus⟩
  | rdCnt => exact ⟨Block.readReg .cnt, exec_rdCnt⟩
  | rdStartTick => exact ⟨Block.readReg .startTick, exec_rdStartTick⟩
  | rdInterval => exact ⟨Block.readReg .interval, exec_rdInterval⟩
  | rdColbufLo => exact ⟨Block.readReg .colbufLo, exec_rdColbufLo⟩
  | rdColbufHi => exact ⟨Block.readReg .colbufHi, exec_rdColbufHi⟩
  | rdColb k => exact ⟨Block.readCol k, exec_rdColb k⟩
  | tick | pinA v | pinB v | svcStart | svcStop | wrCtrl d | busFault a => cases hi

/-- Settles O48: a read by the value it answers, WR_CTRL by its two writes, BUS_FAULT by its one
record. -/
theorem accessesHaveNoSideEffects : Obligations.AccessesHaveNoSideEffects := by
  refine ⟨fun i s hi => ?_, fun d s => ⟨_, exec_wrCtrl d s, rfl, rfl⟩, fun a s t h => ?_⟩
  · obtain ⟨value, hexec⟩ := exec_isRead hi
    exact ⟨_, hexec s, rfl, hexec _⟩
  · obtain ⟨code, -, rfl⟩ := execBusFault_next h
    rfl

/-- The 8-bit lanes of four bytes joined to a word, least significant first (R52). -/
theorem extractLsb'_joined_bytes (b : Fin 4 → Byte) (k : Fin 4) :
    (b 3 ++ b 2 ++ b 1 ++ b 0 : Word).extractLsb' (8 * k.val) 8 = b k := by
  have hskip {n : Nat} (hi : BitVec n) (lo : Byte) (j : Nat) :
      (hi ++ lo).extractLsb' (8 * (j + 1)) 8 = hi.extractLsb' (8 * j) 8 :=
    BitVec.extractLsb'_append_eq_of_le (Nat.le_add_left 8 (8 * j))
  match k with
  | 0 => exact BitVec.extractLsb'_append_eq_right
  | 1 => exact (hskip _ _ 0).trans BitVec.extractLsb'_append_eq_right
  | 2 => exact ((hskip _ _ 1).trans (hskip _ _ 0)).trans BitVec.extractLsb'_append_eq_right
  | 3 => exact ((hskip _ _ 2).trans (hskip _ _ 1)).trans BitVec.extractLsb'_append_eq_left

theorem Block.readReg_colbufLo_lane (b : Block) (k : Fin 4) :
    (b.readReg .colbufLo).extractLsb' (8 * k.val) 8 = b.col[k.val] :=
  extractLsb'_joined_bytes (fun j => b.col[j.val]) k

theorem Block.readReg_colbufHi_lane (b : Block) (k : Fin 4) :
    (b.readReg .colbufHi).extractLsb' (8 * k.val) 8 = b.col[k.val + 4] :=
  extractLsb'_joined_bytes (fun j => b.col[j.val + 4]) k

/-- A field of l bits, zero-extended, is the shifted word under a mask of l ones. -/
theorem setWidth_extractLsb'_eq_and {n : Nat} (w : BitVec n) (i l : Nat) :
    (w.extractLsb' i l).setWidth n = (w >>> i) &&& BitVec.ofNat n (2 ^ l - 1) := by
  apply BitVec.eq_of_getLsbD_eq
  intro j hj
  simp only [BitVec.getLsbD_setWidth, BitVec.getLsbD_extractLsb', BitVec.getLsbD_and,
    BitVec.getLsbD_ushiftRight, BitVec.getLsbD_ofNat, Nat.testBit_two_pow_sub_one, hj, decide_true,
    Bool.true_and, Bool.and_comm]

/-- The byte read of COL[k] is a lane of the word read that holds it (R52, R199). -/
theorem Block.readCol_eq_lane (b : Block) (k : BitVec 3) :
    b.readCol k = if k.toNat < 4 then (b.readReg .colbufLo >>> (8 * k.toNat)) &&& 0xFF#32
      else (b.readReg .colbufHi >>> (8 * (k.toNat - 4))) &&& 0xFF#32 := by
  have hmask (w : Word) (i : Nat) : w >>> i &&& 0xFF#32 = (w.extractLsb' i 8).setWidth 32 :=
    (setWidth_extractLsb'_eq_and w i 8).symm
  rw [hmask, hmask, Block.readCol]
  split
  · next hlow => rw [b.readReg_colbufLo_lane ⟨k.toNat, hlow⟩]
  · next hhigh =>
    rw [b.readReg_colbufHi_lane ⟨k.toNat - 4, by omega⟩]
    simp only [Nat.sub_add_cancel (not_lt.mp hhigh)]

/-- Settles O47, lane by lane. -/
theorem columnReadsAgree : Obligations.ColumnReadsAgree := by
  intro s
  refine ⟨_, _, exec_rdColbufLo s, exec_rdColbufHi s,
    fun k => ⟨s.block.readReg_colbufLo_lane k, s.block.readReg_colbufHi_lane k⟩,
    fun k => ⟨_, exec_rdColb k s, ?_, s.block.readCol_eq_lane k⟩⟩
  rw [Block.readCol, BitVec.toNat_setWidth_of_le (by decide)]

end Sys2Proof.Machine
end

section
/-! PROOF of O51. Which accesses have a fault code: those that are not legal. -/

namespace Sys2Proof.Machine

/-- An access has no fault code where none of the four causes applies (R221, R223). -/
theorem Access.faultCode_eq_none_iff (a : Access) : a.faultCode = none ↔
    mappedOffset a.off = true ∧ a.badSize = false ∧ a.badAlign = false ∧ a.roWrite = false := by
  rw [Access.faultCode]
  split_ifs <;> simp_all

/-! The causes, by the fields of the access. -/

theorem colOffset_iff (off : Byte) :
    colOffset off = true ↔ 0x20 ≤ off.toNat ∧ off.toNat ≤ 0x27 := decide_eq_true_iff

theorem mappedOffset_iff (off : Byte) : mappedOffset off = true ↔
    off.toNat ≤ 0x13 ∨ 0x20 ≤ off.toNat ∧ off.toNat ≤ 0x27 := by
  simp [mappedOffset, colOffset_iff]

theorem Access.badSize_eq_false_iff (a : Access) : a.badSize = false ↔
    a.size = .b32 ∨ a.size = .b8 ∧ 0x20 ≤ a.off.toNat ∧ a.off.toNat ≤ 0x27 := by
  obtain ⟨dir, size, off⟩ := a
  cases size <;> simp [Access.badSize, colOffset_iff]

theorem Access.badAlign_eq_false_iff (a : Access) :
    a.badAlign = false ↔ (a.size = .b32 → a.off.toNat % 4 = 0) := by
  obtain ⟨dir, size, off⟩ := a
  cases size <;> simp [Access.badAlign]

theorem Access.roWrite_eq_false_iff (a : Access) :
    a.roWrite = false ↔ (a.dir ≠ .read → a.off.toNat = 0) := by
  obtain ⟨dir, size, off⟩ := a
  cases dir <;> simp [Access.roWrite, BusDir.isWrite, Reg.offset, BitVec.toNat_eq]

/-- The accesses without a fault code are the legal ones of R53 and R54. -/
theorem Access.faultCode_eq_none_iff_legal (a : Access) :
    a.faultCode = none ↔ LegalAccess a := by
  rw [Access.faultCode_eq_none_iff, mappedOffset_iff, Access.badSize_eq_false_iff,
    Access.badAlign_eq_false_iff, Access.roWrite_eq_false_iff]
  obtain ⟨dir, size, off⟩ := a
  simp only [LegalAccess]
  generalize off.toNat = n
  cases size with
  | b16 => simp
  | b8 | b32 => cases dir <;> simp <;> omega

theorem exists_faultCode_of_not_legal {a : Access} (h : ¬ LegalAccess a) :
    ∃ code, a.faultCode = some code :=
  Option.ne_none_iff_exists'.mp (mt (Access.faultCode_eq_none_iff_legal a).mp h)

/-- Settles O51: an access that is not legal has a fault code, and BUS_FAULT raises it. -/
theorem illegalAccessesAreRecorded : Obligations.IllegalAccessesAreRecorded := by
  intro a s hlegal
  obtain ⟨code, hcode⟩ := exists_faultCode_of_not_legal hlegal
  exact ⟨code, hcode, exec_busFault_of_code hcode s⟩

end Sys2Proof.Machine
end

section
/-! PROOF of O4 and O6. The word of an access: its fields, the rows of R77, what it decodes to, and
the assembly line that spells it. -/

namespace Sys2Proof.Machine

/-! The fields of the word. -/

/-- The reserved bits are 0, and SIZE and OFFSET are those of the access (R72). -/
theorem encodeAccess_fields (a : Access) :
    busRsv (encodeAccess a) = 0 ∧ busSizeField (encodeAccess a) = encodeSize a.size ∧
      lowByte (encodeAccess a) = a.off := by
  refine ⟨BitVec.eq_of_getLsbD_eq fun j hj => ?_, BitVec.eq_of_getLsbD_eq fun j hj => ?_,
    BitVec.eq_of_getLsbD_eq fun j hj => ?_⟩
  · interval_cases j <;> simp [busRsv, encodeAccess]
  · interval_cases j <;> simp [busSizeField, encodeAccess]
  · interval_cases j <;> simp [lowByte, encodeAccess]

theorem decodeSize_encodeSize (size : BusSize) : decodeSize (encodeSize size) = some size := by
  cases size <;> rfl

theorem decodeDir_encodeAccess (a : Access) :
    decodeDir (encodeAccess a) (encodeData a.dir) = a.dir := by
  obtain ⟨dir, size, off⟩ := a
  cases dir <;> simp [decodeDir, encodeAccess, encodeDir, encodeData]

/-- The word of an access decodes to the row of R77 it matches, and to BUS_FAULT of the access where
it matches none (R80). -/
theorem decode_encodeAccess (a : Access) : decode (encodeAccess a) (encodeData a.dir) =
    .op ((decodeBusRow (encodeAccess a) (encodeData a.dir)).getD (.busFault a)) := by
  obtain ⟨hrsv, hsize, hoff⟩ := encodeAccess_fields a
  rw [decode, if_pos (Laws.AgentClass.opClass_encodeAccess a), decodeBus, if_neg (not_not.mpr hrsv),
    hsize, decodeSize_encodeSize, hoff, decodeDir_encodeAccess]
  cases decodeBusRow (encodeAccess a) (encodeData a.dir) <;> rfl

/-! The rows of R77 match the words of legal accesses only. -/

/-- The words of RD_COLB: 0x2020 with the index k in the three low bits (R77). -/
theorem exists_index_of_rdColb_mask {w : OpWord} (h : w &&& 0xFFF8#16 = 0x2020#16) :
    ∃ k : BitVec 3, w = 0x2020#16 ||| k.setWidth 16 := by
  refine ⟨w.extractLsb' 0 3, ?_⟩
  calc w = w &&& (0xFFF8#16 ||| 0x7#16) := BitVec.and_allOnes.symm
    _ = 0x2020#16 ||| (w.extractLsb' 0 3).setWidth 16 := by
      rw [BitVec.and_or_distrib_left, h, setWidth_extractLsb'_eq_and]
      rfl

theorem legalAccess_of_rdColb_mask {w : OpWord} {d : Word} {size : BusSize}
    (hsize : decodeSize (busSizeField w) = some size) (hmask : w &&& 0xFFF8#16 = 0x2020#16) :
    LegalAccess ⟨decodeDir w d, size, lowByte w⟩ := by
  obtain ⟨⟨k⟩, rfl⟩ := exists_index_of_rdColb_mask hmask
  fin_cases k <;> cases hsize <;> simp [LegalAccess, decodeDir, lowByte]

theorem legalAccess_of_decodeBusRow {w : OpWord} {d : Word} {size : BusSize} {i : Instr}
    (hsize : decodeSize (busSizeField w) = some size) (hrow : decodeBusRow w d = some i) :
    LegalAccess ⟨decodeDir w d, size, lowByte w⟩ := by
  by_cases hmask : w &&& 0xFFF8#16 = 0x2020#16
  · exact legalAccess_of_rdColb_mask hsize hmask
  · rw [decodeBusRow, if_neg hmask] at hrow
    split_ifs at hrow <;> subst w <;> cases hsize <;> simp [LegalAccess, decodeDir, lowByte]

/-- An access that is not legal is BUS_FAULT (R80). -/
theorem decode_encodeAccess_of_not_legal {a : Access} (h : ¬ LegalAccess a) :
    decode (encodeAccess a) (encodeData a.dir) = .op (.busFault a) := by
  rw [decode_encodeAccess]
  cases hrow : decodeBusRow (encodeAccess a) (encodeData a.dir) with
  | none => rfl
  | some i =>
    obtain ⟨-, hsize, hoff⟩ := encodeAccess_fields a
    have hlegal := legalAccess_of_decodeBusRow (hsize ▸ decodeSize_encodeSize a.size) hrow
    rw [decodeDir_encodeAccess, hoff] at hlegal
    exact absurd hlegal h

/-! The words of the legal accesses: a register read, the write of CTRL, a column byte read. -/

theorem decode_readReg (r : Reg) (d : Word) :
    decode (encodeAccess ⟨.read, .b32, r.offset⟩) d = .op (readOf r) := by
  cases r <;> rfl

theorem decode_writeCtrl (d : Word) :
    decode (encodeAccess ⟨.write d, .b32, Reg.offset .ctrl⟩) d = .op (.wrCtrl d) := by
  have hword : encodeAccess ⟨.write d, .b32, Reg.offset .ctrl⟩ = 0x1000#16 := by
    simp [encodeAccess, encodeDir, encodeSize, Reg.offset]
  rw [hword]
  rfl

theorem decode_readCol (k : BitVec 3) (d : Word) :
    decode (encodeAccess ⟨.read, .b8, 0x20#8 + k.setWidth 8⟩) d = .op (.rdColb k) := by
  obtain ⟨k⟩ := k
  fin_cases k <;> rfl

theorem exists_reg_of_offset {off : Byte}
    (h : off.toNat ∈ [0x00, 0x04, 0x08, 0x0C, 0x10, 0x20, 0x24]) : ∃ r : Reg, off = r.offset := by
  have hreg : off.toNat ∈ [Reg.ctrl, .status, .cnt, .startTick, .interval, .colbufLo, .colbufHi].map
      (·.offset.toNat) := h
  obtain ⟨r, -, hr⟩ := List.mem_map.mp hreg
  exact ⟨r, BitVec.eq_of_toNat_eq hr.symm⟩

theorem exists_col_of_offset {off : Byte} (hlo : 0x20 ≤ off.toNat) (hhi : off.toNat ≤ 0x27) :
    ∃ k : BitVec 3, off = 0x20#8 + k.setWidth 8 := by
  refine ⟨(off - 0x20#8).setWidth 3, BitVec.eq_of_toNat_eq ?_⟩
  simp only [BitVec.toNat_add, BitVec.toNat_setWidth, BitVec.toNat_sub, BitVec.toNat_ofNat]
  omega

/-- A legal access is a read or WR_CTRL (R53, R77). -/
theorem decode_encodeAccess_of_legal {a : Access} (h : LegalAccess a) :
    ∃ i, decode (encodeAccess a) (encodeData a.dir) = .op i ∧
      (isRead i = true ∨ isWrCtrl i = true) := by
  obtain ⟨dir, size, off⟩ := a
  obtain ⟨rfl, rfl, hoff⟩ | ⟨rfl, rfl, hlo, hhi⟩ | ⟨hdir, rfl, hoff⟩ := h
  · obtain ⟨r, rfl⟩ := exists_reg_of_offset hoff
    exact ⟨_, decode_readReg r _, .inl (by cases r <;> rfl)⟩
  · obtain ⟨k, rfl⟩ := exists_col_of_offset hlo hhi
    exact ⟨_, decode_readCol k _, .inl rfl⟩
  · obtain rfl : off = Reg.offset .ctrl := BitVec.eq_of_toNat_eq hoff
    cases dir with
    | read => exact absurd rfl hdir
    | write d => exact ⟨_, decode_writeCtrl d, .inr rfl⟩

/-- A read or WR_CTRL is a host operation, always enabled (R190), that records no fault. -/
theorem exec_read_or_wrCtrl {i : Instr} (h : isRead i = true ∨ isWrCtrl i = true) (s : State) :
    i.agent = .host ∧ ∃ t, exec i s = .next t ∧ t.block.faults = s.block.faults := by
  cases i with
  | tick | pinA v | pinB v | svcStart | svcStop | busFault a => simp [isRead, isWrCtrl] at h
  | wrCtrl d | rdCtrl | rdStatus | rdCnt | rdStartTick | rdInterval | rdColbufLo | rdColbufHi
  | rdColb k => exact ⟨rfl, _, rfl, rfl⟩

/-- Settles O4: a legal access is a read or WR_CTRL, and any other is BUS_FAULT. -/
theorem busAccessesHaveOneOutcome : Obligations.BusAccessesHaveOneOutcome := by
  intro a s
  by_cases hlegal : LegalAccess a
  · obtain ⟨i, hdecode, hi⟩ := decode_encodeAccess_of_legal hlegal
    obtain ⟨hagent, t, hexec, hfaults⟩ := exec_read_or_wrCtrl hi s
    exact ⟨i, t, hdecode, hagent, hexec,
      .inl ⟨hlegal, (Access.faultCode_eq_none_iff_legal a).mpr hlegal, hi, hfaults⟩⟩
  · obtain ⟨code, hcode⟩ := exists_faultCode_of_not_legal hlegal
    exact ⟨.busFault a, _, decode_encodeAccess_of_not_legal hlegal, rfl,
      exec_busFault_of_code hcode s, .inr ⟨code, hlegal, hcode, rfl, rfl⟩⟩

/-! The assembly lines of the accesses. -/

/-- The line of R85 for an access. -/
def busLine (a : Access) : AsmLine :=
  match a.dir, a.size with
  | .read, .b8 => .rdB a.off
  | .read, .b16 => .rdH a.off
  | .read, .b32 => .rdW a.off
  | .write d, .b8 => .wrB a.off d
  | .write d, .b16 => .wrH a.off d
  | .write d, .b32 => .wrW a.off d

/-- The offset stands alone in the low byte of the word, so R85 may add it. -/
theorem encodeAccess_eq_add_off (a : Access) : encodeAccess a =
    ((encodeDir a.dir).setWidth 16 <<< 13 ||| (encodeSize a.size).setWidth 16 <<< 11) +
      a.off.setWidth 16 := by
  rw [BitVec.add_eq_or_of_and_eq_zero, encodeAccess]
  apply BitVec.eq_of_getLsbD_eq
  intro j hj
  interval_cases j <;> simp

theorem assemble_busLine (a : Access) :
    assemble (busLine a) = ⟨encodeAccess a, encodeData a.dir⟩ := by
  obtain ⟨dir, size, off⟩ := a
  rw [encodeAccess_eq_add_off]
  cases dir <;> cases size <;> simp [busLine, assemble, encodeDir, encodeSize, encodeData]

/-- The line of an access spells what the word of the access decodes to. -/
theorem assembles_busLine {a : Access} {i : Instr}
    (h : decode (encodeAccess a) (encodeData a.dir) = .op i) : Assembles (busLine a) i := by
  rw [Assembles, assemble_busLine]
  exact h

theorem assembles_busLine_of_not_legal (a : Access) (h : ¬ LegalAccess a) :
    Assembles (busLine a) (.busFault a) :=
  assembles_busLine (decode_encodeAccess_of_not_legal h)

theorem not_legalAccess_write_b8 (d : Word) (off : Byte) : ¬ LegalAccess ⟨.write d, .b8, off⟩ := by
  simp [LegalAccess]

theorem not_legalAccess_b16 (dir : BusDir) (off : Byte) : ¬ LegalAccess ⟨dir, .b16, off⟩ := by
  simp [LegalAccess]

/-- Settles O6: the bus lines by the words of their accesses, the others by computation. -/
theorem assemblyLinesMeanTheirOperations : Obligations.AssemblyLinesMeanTheirOperations := by
  refine ⟨rfl, rfl, rfl, fun lvl => by cases lvl <;> exact ⟨rfl, rfl⟩, fun r => ?_, fun d => ?_,
    fun k => ?_, fun off d => ?_⟩
  · exact assembles_busLine (a := ⟨.read, .b32, r.offset⟩) (decode_readReg r _)
  · exact assembles_busLine (a := ⟨.write d, .b32, Reg.offset .ctrl⟩) (decode_writeCtrl d)
  · exact assembles_busLine (a := ⟨.read, .b8, 0x20#8 + k.setWidth 8⟩) (decode_readCol k _)
  · have hwrB := not_legalAccess_write_b8 d off
    have hrdH := not_legalAccess_b16 .read off
    have hwrH := not_legalAccess_b16 (.write d) off
    exact ⟨assembles_busLine_of_not_legal ⟨.read, .b32, off⟩,
      assembles_busLine_of_not_legal ⟨.write d, .b32, off⟩,
      assembles_busLine_of_not_legal ⟨.read, .b8, off⟩,
      assembles_busLine_of_not_legal ⟨.write d, .b8, off⟩ hwrB,
      assembles_busLine_of_not_legal ⟨.read, .b16, off⟩ hrdH,
      assembles_busLine_of_not_legal ⟨.write d, .b16, off⟩ hwrH, hwrB, hrdH, hwrH⟩

end Sys2Proof.Machine
end

section
/-! PROOF of O1, O2, O3 and O5. The decoder and the encoder are inverse to each other, and the words
left over are the reserved ones. -/

namespace Sys2Proof.Machine

/-! The encoder, then the decoder. -/

/-- BUS_FAULT is well-formed only of an access that is not legal (R80). -/
theorem not_legal_of_wellFormed_busFault {a : Access} (h : (Instr.busFault a).WellFormed) :
    ¬ LegalAccess a := by
  rw [← Access.faultCode_eq_none_iff_legal]
  exact Option.isSome_iff_ne_none.mp h

theorem wellFormed_busFault_of_not_legal {a : Access} (h : ¬ LegalAccess a) :
    (Instr.busFault a).WellFormed :=
  Option.isSome_iff_exists.mpr (exists_faultCode_of_not_legal h)

/-- Settles O1: the words of formats E and S by computation, those of format B by the accesses they
spell. -/
theorem decodeOfEncode : Obligations.DecodeOfEncode := by
  intro i hi
  cases i with
  | tick | svcStart | svcStop => rfl
  | pinA lvl | pinB lvl => cases lvl <;> rfl
  | rdCtrl => exact decode_readReg .ctrl _
  | rdStatus => exact decode_readReg .status _
  | rdCnt => exact decode_readReg .cnt _
  | rdStartTick => exact decode_readReg .startTick _
  | rdInterval => exact decode_readReg .interval _
  | rdColbufLo => exact decode_readReg .colbufLo _
  | rdColbufHi => exact decode_readReg .colbufHi _
  | wrCtrl d => exact decode_writeCtrl d
  | rdColb k => exact decode_readCol k _
  | busFault a => exact decode_encodeAccess_of_not_legal (not_legal_of_wellFormed_busFault hi)

/-! The bit fields of R82 are the fields the decoder reads (R71 to R74). -/

theorem bits_eq_toNat_extractLsb' (w : OpWord) (hi lo : Nat) :
    bits w hi lo = (w.extractLsb' lo (hi - lo + 1)).toNat := by
  rw [bits, BitVec.extractLsb'_toNat, Nat.shiftRight_eq_div_pow]

theorem bits_one_eq_toNat_getLsbD (w : OpWord) (k : Nat) : bits w k k = (w.getLsbD k).toNat := by
  rw [bits, Nat.sub_self, BitVec.getLsbD, Nat.toNat_testBit, Nat.zero_add, pow_one]

theorem bits_opClass (w : OpWord) : bits w 15 14 = (opClass w).toNat :=
  bits_eq_toNat_extractLsb' w 15 14

/-- The reserved words, by the fields the decoder reads. -/
theorem reservedWord_iff (w : OpWord) : ReservedWord w ↔
    opClass w = 0b11#2 ∨
    (opClass w = 0b00#2 ∧ (busSizeField w = 0b11#2 ∨ busRsv w ≠ 0)) ∨
    (opClass w = 0b01#2 ∧ (highRsv w ≠ 0 ∨ evtRsv w ≠ 0 ∨ 3 ≤ (evtField w).toNat ∨
      (evtField w = 0b0000#4 ∧ lvlField w = true))) ∨
    (opClass w = 0b10#2 ∧ (highRsv w ≠ 0 ∨ (lowByte w ≠ 0x01#8 ∧ lowByte w ≠ 0x02#8))) := by
  have hsize := bits_eq_toNat_extractLsb' w 12 11
  have hbusRsv := bits_eq_toNat_extractLsb' w 10 8
  have hhighRsv := bits_eq_toNat_extractLsb' w 13 8
  have hevtRsv := bits_eq_toNat_extractLsb' w 3 1
  have hevt := bits_eq_toNat_extractLsb' w 7 4
  have hlow := bits_eq_toNat_extractLsb' w 7 0
  have hlvl := bits_one_eq_toNat_getLsbD w 0
  simp only [ReservedWord, bits_opClass, hsize, hbusRsv, hhighRsv, hevtRsv, hevt, hlow, hlvl]
  simp [BitVec.toNat_eq, opClass, busSizeField, busRsv, highRsv, evtRsv, evtField, lowByte,
    lvlField]

/-! What each format's decoder refuses. -/

theorem decodeSize_eq_none_iff (f : BitVec 2) : decodeSize f = none ↔ f = 0b11#2 := by
  revert f
  decide

theorem decodeBus_eq_refuse_iff (w : OpWord) (d : Word) (r : RefuseReason) :
    decodeBus w d = .refuse r ↔
      (busSizeField w = 0b11#2 ∨ busRsv w ≠ 0) ∧ r = .reservedBus := by
  rw [decodeBus, ← decodeSize_eq_none_iff]
  by_cases hrsv : busRsv w = 0#3
  · cases decodeSize (busSizeField w) with
    | none => simp [hrsv, @eq_comm _ r]
    | some size => cases decodeBusRow w d <;> simp [hrsv]
  · simp [hrsv, @eq_comm _ r]

theorem decodeEvent_eq_refuse_iff (w : OpWord) (r : RefuseReason) :
    decodeEvent w = .refuse r ↔
      (highRsv w ≠ 0 ∨ evtRsv w ≠ 0 ∨ 3 ≤ (evtField w).toNat ∨
        (evtField w = 0b0000#4 ∧ lvlField w = true)) ∧ r = .reservedEvent := by
  have hevt : 3 ≤ (evtField w).toNat ↔
      evtField w ≠ 0b0000#4 ∧ evtField w ≠ 0b0001#4 ∧ evtField w ≠ 0b0010#4 := by
    generalize evtField w = evt
    revert evt
    decide
  rw [decodeEvent, hevt]
  split_ifs with hrsv <;> simp_all [@eq_comm _ r]
  exact fun _ => hrsv.imp_right .inl

theorem decodeService_eq_refuse_iff (w : OpWord) (r : RefuseReason) :
    decodeService w = .refuse r ↔
      (highRsv w ≠ 0 ∨ (lowByte w ≠ 0x01#8 ∧ lowByte w ≠ 0x02#8)) ∧ r = .reservedService := by
  rw [decodeService]
  split_ifs <;> simp_all [@eq_comm _ r]

/-- Settles O3, CLASS by CLASS. -/
theorem reservedWordsAreRefused : Obligations.ReservedWordsAreRefused := by
  intro w d r
  have hbus := decodeBus_eq_refuse_iff w d r
  have hevent := decodeEvent_eq_refuse_iff w r
  have hservice := decodeService_eq_refuse_iff w r
  have hclass : opClass w = 0b00#2 ∨ opClass w = 0b01#2 ∨ opClass w = 0b10#2 ∨
      opClass w = 0b11#2 := by
    generalize opClass w = c
    revert c
    decide
  rw [reservedWord_iff, refuseReason, bits_opClass, decode]
  obtain h | h | h | h := hclass
  · simpa [h] using hbus
  · simpa [h] using hevent
  · simpa [h] using hservice
  · simp [h, @eq_comm _ r]

/-! A word by its fields (R72, R73, R74). -/

theorem eq_append_busFields (w : OpWord) :
    w = opClass w ++ w.extractLsb' 13 1 ++ busSizeField w ++ busRsv w ++ lowByte w := by
  simp only [opClass, busSizeField, busRsv, lowByte,
    BitVec.extractLsb'_append_extractLsb'_eq_extractLsb', BitVec.extractLsb'_eq_self]

theorem eq_append_eventFields (w : OpWord) :
    w = opClass w ++ highRsv w ++ evtField w ++ evtRsv w ++ w.extractLsb' 0 1 := by
  simp only [opClass, highRsv, evtField, evtRsv,
    BitVec.extractLsb'_append_extractLsb'_eq_extractLsb', BitVec.extractLsb'_eq_self]

theorem eq_append_serviceFields (w : OpWord) : w = opClass w ++ highRsv w ++ lowByte w := by
  simp only [opClass, highRsv, lowByte,
    BitVec.extractLsb'_append_extractLsb'_eq_extractLsb', BitVec.extractLsb'_eq_self]

theorem extractLsb'_one (w : OpWord) (k : Nat) :
    w.extractLsb' k 1 = BitVec.ofBool (w.getLsbD k) := by
  apply BitVec.eq_of_getLsbD_eq
  intro j hj
  obtain rfl := Nat.lt_one_iff.mp hj
  simp

theorem encodeAccess_eq_append (a : Access) :
    encodeAccess a = 0b00#2 ++ encodeDir a.dir ++ encodeSize a.size ++ 0#3 ++ a.off := by
  obtain ⟨hrsv, hsize, hoff⟩ := encodeAccess_fields a
  have hdir : (encodeAccess a).extractLsb' 13 1 = encodeDir a.dir := by
    rw [extractLsb'_one]
    cases hdir : a.dir <;> simp [encodeAccess, hdir, encodeDir]
  rw [eq_append_busFields (encodeAccess a), Laws.AgentClass.opClass_encodeAccess, hdir, hsize, hrsv,
    hoff]
  rfl

theorem encodeEvent_eq_append (evt : BitVec 4) (lvl : Bool) :
    encodeEvent evt lvl = 0b01#2 ++ 0#6 ++ evt ++ 0#3 ++ BitVec.ofBool lvl := by
  revert evt lvl
  decide

theorem encodeService_eq_append (sid : Byte) : encodeService sid = 0b10#2 ++ 0#6 ++ sid := by
  revert sid
  decide

theorem encodeSize_of_decodeSize {f : BitVec 2} {size : BusSize} (h : decodeSize f = some size) :
    encodeSize size = f := by
  revert f size h
  decide

theorem encodeDir_decodeDir (w : OpWord) (d : Word) :
    encodeDir (decodeDir w d) = w.extractLsb' 13 1 := by
  rw [extractLsb'_one, decodeDir]
  cases w.getLsbD 13 <;> rfl

/-! A word with its reserved bits 0 is the encoder's word of its fields. -/

theorem encodeAccess_fields_eq {w : OpWord} {size : BusSize} (hclass : opClass w = 0b00#2)
    (hrsv : busRsv w = 0) (hsize : decodeSize (busSizeField w) = some size) (d : Word) :
    encodeAccess ⟨decodeDir w d, size, lowByte w⟩ = w :=
  calc
    _ = 0b00#2 ++ w.extractLsb' 13 1 ++ busSizeField w ++ 0#3 ++ lowByte w := by
      rw [encodeAccess_eq_append, encodeDir_decodeDir, encodeSize_of_decodeSize hsize]
    _ = opClass w ++ w.extractLsb' 13 1 ++ busSizeField w ++ busRsv w ++ lowByte w := by
      rw [hclass, hrsv]; rfl
    _ = w := (eq_append_busFields w).symm

theorem encodeEvent_fields_eq {w : OpWord} (hclass : opClass w = 0b01#2) (hhigh : highRsv w = 0)
    (hrsv : evtRsv w = 0) : encodeEvent (evtField w) (lvlField w) = w :=
  calc
    _ = 0b01#2 ++ 0#6 ++ evtField w ++ 0#3 ++ w.extractLsb' 0 1 := by
      rw [encodeEvent_eq_append, extractLsb'_one, lvlField]
    _ = opClass w ++ highRsv w ++ evtField w ++ evtRsv w ++ w.extractLsb' 0 1 := by
      rw [hclass, hhigh, hrsv]; rfl
    _ = w := (eq_append_eventFields w).symm

theorem encodeService_fields_eq {w : OpWord} (hclass : opClass w = 0b10#2) (hrsv : highRsv w = 0) :
    encodeService (lowByte w) = w :=
  calc
    _ = 0b10#2 ++ 0#6 ++ lowByte w := encodeService_eq_append _
    _ = opClass w ++ highRsv w ++ lowByte w := by rw [hclass, hrsv]; rfl
    _ = w := (eq_append_serviceFields w).symm

/-! The decoder, then the encoder. -/

/-- A format-B word that is an operation has its reserved bits 0 and names a size (R72). -/
theorem fields_of_decodeBus {w : OpWord} {d : Word} {i : Instr} (h : decodeBus w d = .op i) :
    busRsv w = 0 ∧ ∃ size, decodeSize (busSizeField w) = some size := by
  have hvalid := (decodeBus_eq_refuse_iff w d .reservedBus).not.mp (by simp [h])
  rw [← decodeSize_eq_none_iff] at hvalid
  simpa [and_comm, Option.ne_none_iff_exists'] using hvalid

/-- The operand matters only beside a write (R75). -/
theorem decode_encodeData_decodeDir (w : OpWord) (d : Word) :
    decode w (encodeData (decodeDir w d)) = decode w d := by
  by_cases hread : w.getLsbD 13 = true
  · have hne : w ≠ 0x1000#16 := by rintro rfl; exact absurd hread (by decide)
    simp only [decode, decodeBus, decodeBusRow, if_neg hne, decodeDir, if_pos hread]
  · rw [decodeDir, if_neg hread, encodeData]

/-- Every access is spelled by a well-formed operation: a read, WR_CTRL or BUS_FAULT (R77, R80). -/
theorem exists_encode_eq_access (a : Access) :
    ∃ i : Instr, i.WellFormed ∧ encode i = ⟨encodeAccess a, encodeData a.dir⟩ := by
  by_cases hlegal : LegalAccess a
  · obtain ⟨dir, size, off⟩ := a
    obtain ⟨rfl, rfl, hoff⟩ | ⟨rfl, rfl, hlo, hhi⟩ | ⟨hdir, rfl, hoff⟩ := hlegal
    · obtain ⟨r, rfl⟩ := exists_reg_of_offset hoff
      exact ⟨readOf r, by cases r <;> rfl, by cases r <;> rfl⟩
    · obtain ⟨k, rfl⟩ := exists_col_of_offset hlo hhi
      exact ⟨.rdColb k, rfl, rfl⟩
    · obtain rfl : off = Reg.offset .ctrl := BitVec.eq_of_toNat_eq hoff
      cases dir with
      | read => exact absurd rfl hdir
      | write d => exact ⟨.wrCtrl d, rfl, rfl⟩
  · exact ⟨.busFault a, wellFormed_busFault_of_not_legal hlegal, rfl⟩

/-- Some well-formed operation has the word and operand w and d; by decodeOfEncode it is the one
that w and d decode to. -/
theorem encode_of_decodeBus {w : OpWord} {d : Word} {i : Instr} (hclass : opClass w = 0b00#2)
    (h : decodeBus w d = .op i) : i.WellFormed ∧ encode i = ⟨w, encodeData (decodeDir w d)⟩ := by
  obtain ⟨hrsv, size, hsize⟩ := fields_of_decodeBus h
  obtain ⟨j, hj, hencode⟩ := exists_encode_eq_access ⟨decodeDir w d, size, lowByte w⟩
  rw [encodeAccess_fields_eq hclass hrsv hsize] at hencode
  have hdecode : decode w d = .op j := by
    rw [← decode_encodeData_decodeDir]
    simpa only [hencode] using decodeOfEncode j hj
  rw [decode, if_pos hclass, h] at hdecode
  cases hdecode
  exact ⟨hj, hencode⟩

theorem encode_of_decodeEvent {w : OpWord} {i : Instr} (hclass : opClass w = 0b01#2)
    (h : decodeEvent w = .op i) : i.WellFormed ∧ encode i = ⟨w, 0#32⟩ := by
  rw [decodeEvent] at h
  split_ifs at h with hrsv htick hlvl hpinA hpinB
  all_goals
    cases h
    obtain ⟨hhigh, hlow⟩ := not_or.mp hrsv
    have hword := encodeEvent_fields_eq hclass (not_not.mp hhigh) (not_not.mp hlow)
    refine ⟨rfl, ?_⟩
  · rw [htick, eq_false_of_ne_true hlvl] at hword
    rw [← hword]; rfl
  · rw [hpinA] at hword
    rw [encode, hword]
  · rw [hpinB] at hword
    rw [encode, hword]

theorem encode_of_decodeService {w : OpWord} {i : Instr} (hclass : opClass w = 0b10#2)
    (h : decodeService w = .op i) : i.WellFormed ∧ encode i = ⟨w, 0#32⟩ := by
  rw [decodeService] at h
  split_ifs at h with hrsv hstart hstop
  all_goals
    cases h
    have hword := encodeService_fields_eq hclass (not_not.mp hrsv)
  · exact ⟨rfl, by rw [← hword, hstart]; rfl⟩
  · exact ⟨rfl, by rw [← hword, hstop]; rfl⟩

/-- Settles O2, CLASS by CLASS. -/
theorem encodeOfDecode : Obligations.EncodeOfDecode := by
  intro w d i h
  rw [decode] at h
  split_ifs at h with hbus hevent hservice
  · obtain ⟨hwf, hencode⟩ := encode_of_decodeBus hbus h
    refine ⟨hwf, congrArg TraceWord.opw hencode, ?_⟩
    simp only [hencode, bits_opClass, hbus, bits_one_eq_toNat_getLsbD, decodeDir]
    cases w.getLsbD 13 <;> rfl
  · obtain ⟨hwf, hencode⟩ := encode_of_decodeEvent hevent h
    exact ⟨hwf, congrArg TraceWord.opw hencode, by simp [hencode, bits_opClass, hevent]⟩
  · obtain ⟨hwf, hencode⟩ := encode_of_decodeService hservice h
    exact ⟨hwf, congrArg TraceWord.opw hencode, by simp [hencode, bits_opClass, hservice]⟩

/-- Settles O5, by running the decoder on each word. -/
theorem specWordsDecode : Obligations.SpecWordsDecode :=
  fun _ => ⟨rfl, rfl, rfl, rfl, rfl, rfl, rfl, rfl, rfl, rfl, rfl, rfl, rfl, rfl, rfl, rfl⟩

end Sys2Proof.Machine
end

section
/-! PROOF of O7, O23, O24, O25, O29 and O34. The step by the next word, which services are enabled,
and the runs of the pseudo-instructions. -/

namespace Sys2Proof.Machine

/-! One word. -/

theorem nextWord_of_trace {s : State} {w : TraceWord} {ws : List TraceWord}
    (h : s.trace = w :: ws) : s.nextWord = some (w, s.setTrace ws) := by
  rw [State.nextWord, h]

/-- A reserved word refuses the run with the decoder's reason (R84). -/
theorem runWord_of_refuse {w : TraceWord} {r : RefuseReason} (h : decode w.opw w.d = .refuse r)
    (s : State) : runWord w s = .refused (.reservedWord r) := by
  rw [runWord, h]

/-- Settles O7: a step runs the next word, and refuses where there is none. -/
theorem stepRunsNextWord : Obligations.StepRunsNextWord := by
  refine ⟨fun s w ws i htrace hdecode => ?_, fun s w ws r htrace hdecode => ?_, fun s htrace => ?_⟩
  · rw [step, nextWord_of_trace htrace]
    exact runWord_of_decode hdecode _
  · rw [step, nextWord_of_trace htrace]
    exact runWord_of_refuse hdecode _
  · rw [step, nextWord_nil htrace]

/-! The services. -/

theorem State.startEnabled_iff (s : State) : s.startEnabled = true ↔ s.block.startPend = true ∧
    (s.cfg.svcOrder = .any ∨ s.cfg.svcOrder = .startFirst ∨ s.block.stopPend = false) := by
  rw [State.startEnabled, State.startOrderOk, Bool.and_eq_true]
  cases s.cfg.svcOrder <;> simp

theorem State.stopEnabled_iff (s : State) : s.stopEnabled = true ↔ s.block.stopPend = true ∧
    (s.cfg.svcOrder = .any ∨ s.cfg.svcOrder = .stopFirst ∨ s.block.startPend = false) := by
  rw [State.stopEnabled, State.stopOrderOk, Bool.and_eq_true]
  cases s.cfg.svcOrder <;> simp

theorem exec_svcStart_next_iff (s : State) :
    (∃ t, exec .svcStart s = .next t) ↔ s.startEnabled = true :=
  ⟨fun ⟨_, h⟩ => (execSvcStart_next h).1, fun h => ⟨_, exec_svcStart_of_enabled h⟩⟩

theorem exec_svcStop_next_iff (s : State) :
    (∃ t, exec .svcStop s = .next t) ↔ s.stopEnabled = true :=
  ⟨fun ⟨_, h⟩ => (execSvcStop_next h).1, fun h => ⟨_, exec_svcStop_of_enabled h⟩⟩

/-- Settles O29: a service answers a next state exactly where it is enabled. -/
theorem serviceOrderTable : Obligations.ServiceOrderTable := by
  intro s
  refine ⟨(exec_svcStart_next_iff s).trans s.startEnabled_iff,
    (exec_svcStop_next_iff s).trans s.stopEnabled_iff, fun h => ?_, fun h => ?_⟩
  · rw [exec_svcStart, if_neg (mt (exec_svcStart_next_iff s).mpr (not_exists.mpr h))]
  · rw [exec_svcStop, if_neg (mt (exec_svcStop_next_iff s).mpr (not_exists.mpr h))]

/-! Lists of words. -/

/-- A run of two lists takes the second from where the first ends. -/
theorem runWords_append {ws vs : List TraceWord} {s t u : State} (hws : runWords ws s = .next t)
    (hvs : runWords vs t = .next u) : runWords (ws ++ vs) s = .next u := by
  induction ws generalizing s with
  | nil => cases hws; exact hvs
  | cons w ws ih =>
    rw [runWords_cons] at hws
    rw [List.cons_append, runWords_cons]
    cases hword : runWord w s with
    | next s' => rw [hword] at hws; exact ih hws
    | fault r | refused r => rw [hword] at hws; cases hws

/-- Lines of assembly run as the operations they spell (R85). -/
theorem runWords_assemble {ls : List AsmLine} {is : List Instr} (h : List.Forall₂ Assembles ls is)
    (s : State) : runWords (ls.map assemble) s = runOps is s := by
  induction h generalizing s with
  | nil => rfl
  | @cons l i ls is hline _ ih =>
    rw [List.map_cons, runWords, runOps, runWord_of_decode hline]
    cases exec i s with
    | next u => exact ih u
    | fault r | refused r => rfl

/-- A list that leaves the state it ends in unchanged may be repeated. -/
theorem runWords_replicate {ws : List TraceWord} {s t : State} (h : runWords ws s = .next t)
    (hidem : runWords ws t = .next t) (n : Nat) :
    runWords (List.replicate (n + 1) ws).flatten s = .next t := by
  induction n generalizing s with
  | zero => simpa using h
  | succ n ih => exact runWords_append h (ih hidem)

/-! The pseudo-edges. -/

/-- The state that fall.a leaves: PIN_A recorded low, the edge captured if its source is enabled. -/
def State.fallenA (s : State) : State :=
  s.setBlock { s.block with lvlA := false, startPend := s.block.startPend || s.block.startEn }

/-- The state that rise.b leaves: PIN_B recorded high, the edge captured if its source is
enabled. -/
def State.risenB (s : State) : State :=
  s.setBlock { s.block with lvlB := true, stopPend := s.block.stopPend || s.block.stopEn }

theorem Block.startPendAfter_true (b : Block) : b.startPendAfter true = b.startPend := by
  rw [Bool.eq_iff_iff]
  simp

theorem Block.stopPendAfter_false (b : Block) : b.stopPendAfter false = b.stopPend := by
  rw [Bool.eq_iff_iff]
  simp

/-- A falling edge on a pin recorded high is captured if its source is enabled (R112). -/
theorem Block.startPendAfter_false_of_high {b : Block} (h : b.lvlA = true) :
    b.startPendAfter false = (b.startPend || b.startEn) := by
  rw [Bool.eq_iff_iff]
  simp [h]

/-- A rising edge on a pin recorded low is captured if its source is enabled (R113). -/
theorem Block.stopPendAfter_true_of_low {b : Block} (h : b.lvlB = false) :
    b.stopPendAfter true = (b.stopPend || b.stopEn) := by
  rw [Bool.eq_iff_iff]
  simp [h]

theorem runWords_fallA (s : State) : runWords fallA s = .next s.fallenA := by
  have hlines : List.Forall₂ Assembles [.pinA true, .pinA false] [.pinA true, .pinA false] :=
    .cons rfl (.cons rfl .nil)
  refine (runWords_assemble hlines s).trans ?_
  rw [runOps_cons (exec_pinA true s), runOps_cons (exec_pinA false _), Block.startPendAfter_true,
    Block.startPendAfter_false_of_high rfl]
  rfl

theorem runWords_riseB (s : State) : runWords riseB s = .next s.risenB := by
  have hlines : List.Forall₂ Assembles [.pinB false, .pinB true] [.pinB false, .pinB true] :=
    .cons rfl (.cons rfl .nil)
  refine (runWords_assemble hlines s).trans ?_
  rw [runOps_cons (exec_pinB false s), runOps_cons (exec_pinB true _), Block.stopPendAfter_false,
    Block.stopPendAfter_true_of_low rfl]
  rfl

/-- Settles O24: the first level event of each pair makes no edge and the second makes one. -/
theorem pseudoEdgesAreEdges : Obligations.PseudoEdgesAreEdges :=
  fun s => ⟨runWords_fallA s, runWords_riseB s⟩

theorem State.fallenA_fallenA (s : State) : s.fallenA.fallenA = s.fallenA := by
  simp [State.fallenA, State.setBlock]

theorem State.risenB_risenB (s : State) : s.risenB.risenB = s.risenB := by
  simp [State.risenB, State.setBlock]

/-- Settles O23: an edge after one that was captured or lost changes nothing. -/
theorem repeatedEdgesMerge : Obligations.RepeatedEdgesMerge := by
  intro s n
  have hfall := runWords_fallA s.fallenA
  have hrise := runWords_riseB s.risenB
  rw [State.fallenA_fallenA] at hfall
  rw [State.risenB_risenB] at hrise
  rw [runWords_fallA, runWords_riseB]
  exact ⟨runWords_replicate (runWords_fallA s) hfall n,
    runWords_replicate (runWords_riseB s) hrise n⟩

/-! enable and rd.col. -/

theorem runWords_enable (s : State) : runWords enable s =
    .next ((s.setBlock (s.block.setCtrl true true)).respond .noResult) := rfl

theorem assembles_rdB_col (k : Fin 8) :
    Assembles (.rdB (0x20#8 + BitVec.ofNat 8 k)) (.rdColb (BitVec.ofNat 3 k)) := by
  revert k
  decide

/-- The first n words of rd.col read the first n column bytes in order. -/
theorem runWords_take_rdCol {n : Nat} (hn : n ≤ 8) (s : State) : runWords (rdCol.take n) s =
    runOps ((List.range n).map fun k => .rdColb (BitVec.ofNat 3 k)) s := by
  have hlines : List.Forall₂ Assembles
      ((List.range n).map fun k => .rdB (0x20#8 + BitVec.ofNat 8 k))
      ((List.range n).map fun k => .rdColb (BitVec.ofNat 3 k)) := by
    rw [List.forall₂_map_left_iff, List.forall₂_map_right_iff, List.forall₂_same]
    exact fun k hk => assembles_rdB_col ⟨k, (List.mem_range.mp hk).trans_le hn⟩
  rw [← runWords_assemble hlines, rdCol, ← List.map_take, List.take_range, Nat.min_eq_left hn,
    List.map_map]
  rfl

/-- A run of column reads leaves the host the last byte read and changes nothing else (R199). -/
theorem runOps_rdColb_concat (ks : List Nat) (n : Nat) (s : State) :
    runOps ((ks ++ [n]).map fun k => .rdColb (BitVec.ofNat 3 k)) s =
      .next (s.respond (.result (s.block.readCol (BitVec.ofNat 3 n)))) := by
  induction ks generalizing s with
  | nil => rfl
  | cons k ks ih =>
    rw [List.cons_append, List.map_cons, runOps_cons (exec_rdColb _ s)]
    exact ih _

/-- Settles O25: enable is one WR_CTRL, and rd.col a list of column reads. -/
theorem enableAndColumnReads : Obligations.EnableAndColumnReads := by
  refine fun s => ⟨runWords_enable s, rfl, fun n hn => ?_⟩
  rw [runWords_take_rdCol hn, List.range_succ]
  exact runOps_rdColb_concat (List.range n) n s

/-! measure N. -/

theorem runWords_svcStart {s : State} (h : s.startEnabled = true) :
    runWords [assemble .svcStart] s = .next (s.setBlock s.block.captureStart) :=
  (runWords_assemble (ls := [.svcStart]) (.cons rfl .nil) s).trans
    (runOps_cons (exec_svcStart_of_enabled h))

theorem runWords_svcStop {s : State} (h : s.stopEnabled = true) :
    runWords [assemble .svcStop] s = .next
      (s.setBlock (s.block.latchStop s.measured (enc s.cfg (normalise s.cfg s.measured)))) :=
  (runWords_assemble (ls := [.svcStop]) (.cons rfl .nil) s).trans
    (runOps_cons (exec_svcStop_of_enabled h))

/-- N ticks move the counter by N mod 2^W and change nothing else (R100, R101). -/
theorem runWords_ticks (n : Nat) {s : State} (hW : s.cfg.cntWidth ≤ 32)
    (hcnt : FitsW s.cfg s.block.cnt) :
    ∃ v, runWords (ticks n) s = .next (s.setBlock (s.block.setCnt v)) ∧
      v.toNat = (s.block.cnt.toNat + n) % 2 ^ s.cfg.cntWidth := by
  induction n generalizing s with
  | zero => exact ⟨s.block.cnt, rfl, (Nat.mod_eq_of_lt hcnt).symm⟩
  | succ n ih =>
    have hnext : (wrapW s.cfg (s.block.cnt.toNat + 1)).toNat =
        (s.block.cnt.toNat + 1) % 2 ^ s.cfg.cntWidth := by
      have hwrap := wrapW_toNat hW (s.block.cnt.toNat + 1)
      exact_mod_cast hwrap
    obtain ⟨v, hrun, hv⟩ :=
      ih (s := s.setBlock (s.block.setCnt (wrapW s.cfg (s.block.cnt.toNat + 1)))) hW (wrapW_lt hW _)
    refine ⟨v, hrun, hv.trans ?_⟩
    rw [State.setBlock_block, Block.setCnt_cnt, hnext, State.setBlock_cfg, Nat.mod_add_mod,
      Nat.add_right_comm, Nat.add_assoc]

/-- The counter n ticks after a start measures n mod 2^W (R121, R271). -/
theorem measured_toNat_of_ticks {s : State} (hW : s.cfg.cntWidth ≤ 32) {n : Nat}
    (hcnt : s.block.cnt.toNat = (s.block.startTick.toNat + n) % 2 ^ s.cfg.cntWidth) :
    s.measured.toNat = n % 2 ^ s.cfg.cntWidth := by
  have hmeasured := wrapW_toNat hW ((s.block.cnt.toNat : Int) - s.block.startTick.toNat)
  rw [← State.measured, hcnt] at hmeasured
  push_cast at hmeasured
  rw [Int.emod_sub_emod, add_sub_cancel_left] at hmeasured
  exact_mod_cast hmeasured

/-- fall.a with its source enabled makes SVC_START the enabled service where no stop is pending, in
every order (R118). -/
theorem startEnabled_fallenA {s : State} (hen : s.block.startEn = true)
    (hstop : s.block.stopPend = false) : s.fallenA.startEnabled = true :=
  (State.startEnabled_iff _).mpr ⟨by simp [State.fallenA, hen], .inr (.inr hstop)⟩

/-- rise.b with its source enabled makes SVC_STOP the enabled service where no start is pending, in
every order (R118). -/
theorem stopEnabled_risenB {s : State} (hen : s.block.stopEn = true)
    (hstart : s.block.startPend = false) : s.risenB.stopEnabled = true :=
  (State.stopEnabled_iff _).mpr ⟨by simp [State.risenB, hen], .inr (.inr hstart)⟩

/-- Settles O34, part by part: the start is enabled because no stop is pending, and the stop because
the start has been served. -/
theorem measureGivesTicksModWidth : Obligations.MeasureGivesTicksModWidth := by
  rintro s n ⟨-, hW, -⟩ hcnt hstartEn hstopEn hstopPend
  have hstarted := runWords_append (runWords_fallA s)
    (runWords_svcStart (startEnabled_fallenA hstartEn hstopPend))
  obtain ⟨v, hticks, hv⟩ :=
    runWords_ticks n (s := s.fallenA.setBlock s.fallenA.block.captureStart) hW hcnt
  have hrisen := runWords_append (runWords_append hstarted hticks) (runWords_riseB _)
  have hstopped := runWords_append hrisen (runWords_svcStop (stopEnabled_risenB hstopEn rfl))
  refine ⟨_, hstopped, ?_, rfl, rfl, rfl, rfl, rfl⟩
  apply measured_toNat_of_ticks
  · exact hW
  · exact hv

end Sys2Proof.Machine
end

section
/-! PROOF of O18, O19 and O20. The counter: what one operation does to CNT, and from that what a run
and an infinite execution do. -/

namespace Sys2Proof.Machine

/-- The counter's next value, as a natural number (R100). -/
theorem wrapW_succ_toNat {c : Config} (hW : c.cntWidth ≤ 32) (n : Nat) :
    (wrapW c ((n : Int) + 1)).toNat = (n + 1) % 2 ^ c.cntWidth := by
  exact_mod_cast wrapW_toNat hW ((n : Int) + 1)

/-- Settles O18: from 2^W - 1 the sum is 2^W, whose residue is 0. -/
theorem tickIncrementsCounter : Obligations.TickIncrementsCounter := by
  refine ⟨fun _ => rfl, rfl, fun s ⟨_, hW, _⟩ => ?_⟩
  have hnext := wrapW_succ_toNat hW s.block.cnt.toNat
  refine ⟨_, exec_tick s, hnext, fun hmax => BitVec.eq_of_toNat_eq ?_⟩
  rw [hnext, hmax, Nat.sub_add_cancel Nat.one_le_two_pow, Nat.mod_self]
  rfl

/-- Every operation that completes moves CNT, mod 2^W, by one where it is a TICK and by nothing
where it is not (R100, R103). -/
theorem exec_cnt_toNat {i : Instr} {s t : State} (hW : s.cfg.cntWidth ≤ 32)
    (hcnt : FitsW s.cfg s.block.cnt) (h : exec i s = .next t) :
    t.block.cnt.toNat =
      (s.block.cnt.toNat + if i = .tick then 1 else 0) % 2 ^ s.cfg.cntWidth := by
  split
  · next hi =>
    subst hi
    cases h
    exact wrapW_succ_toNat hW s.block.cnt.toNat
  · next hi => rw [(exec_frame h).cnt hi, Nat.add_zero, Nat.mod_eq_of_lt hcnt]

/-- Every operation that completes leaves CNT within its width (R14, R22). -/
theorem exec_keeps_fitsW_cnt {i : Instr} {s t : State} (hW : s.cfg.cntWidth ≤ 32)
    (hcnt : FitsW s.cfg s.block.cnt) (h : exec i s = .next t) : FitsW t.cfg t.block.cnt := by
  rw [FitsW, (exec_frame h).cfg, exec_cnt_toNat hW hcnt h]
  exact Nat.mod_lt _ (Nat.two_pow_pos _)

/-- Settles O19, by induction on the list: the head moves CNT by one where it is a TICK, and the
tail, with the same parameters, by the number of its TICKs. -/
theorem counterCountsTicks : Obligations.CounterCountsTicks := by
  rintro is s t ⟨-, hW, -⟩ hcnt h
  induction is generalizing s with
  | nil => cases h; exact (Nat.mod_eq_of_lt hcnt).symm
  | cons i is ih =>
    obtain ⟨u, hexec, hrun⟩ := runOps_cons_next h
    have hcfg : u.cfg = s.cfg := (exec_frame hexec).cfg
    rw [ih u (hcfg ▸ hW) (exec_keeps_fitsW_cnt hW hcnt hexec) hrun, hcfg,
      exec_cnt_toNat hW hcnt hexec, Nat.mod_add_mod, List.count_cons]
    simp only [beq_iff_eq, Nat.add_right_comm, Nat.add_assoc]

/-- An infinite execution never changes the parameters (R7 to R11). -/
theorem IsExecution.cfg {st : Nat → State} {op : Nat → Instr} (h : IsExecution st op) (n : Nat) :
    (st n).cfg = (st 0).cfg := by
  induction n with
  | zero => rfl
  | succ n ih => exact (exec_frame (h n)).cfg.trans ih

/-- At moment n of an infinite execution CNT has moved, mod 2^W, by the number of TICKs before n. -/
theorem IsExecution.cnt_toNat {st : Nat → State} {op : Nat → Instr} (h : IsExecution st op)
    (hW : (st 0).cfg.cntWidth ≤ 32) (hcnt : FitsW (st 0).cfg (st 0).block.cnt) (n : Nat) :
    (st n).block.cnt.toNat =
      ((st 0).block.cnt.toNat + Nat.count (op · = .tick) n) % 2 ^ (st 0).cfg.cntWidth := by
  induction n with
  | zero => exact (Nat.mod_eq_of_lt hcnt).symm
  | succ n ih =>
    have hfits : FitsW (st 0).cfg (st n).block.cnt := ih.trans_lt (Nat.mod_lt _ (Nat.two_pow_pos _))
    rw [← h.cfg n] at hW hfits
    rw [exec_cnt_toNat hW hfits (h n), h.cfg n, ih, Nat.mod_add_mod, Nat.count_succ, Nat.add_assoc]

/-- From any c below M some number of increments, as late as wished, reaches v below M. -/
theorem exists_ge_add_mod_eq {M c v : Nat} (hc : c < M) (hv : v < M) (n : Nat) :
    ∃ k, n ≤ k ∧ (c + k) % M = v := by
  refine ⟨(M - c) + v + M * n, ?_, ?_⟩
  · exact (Nat.le_mul_of_pos_left n (by omega)).trans (Nat.le_add_left _ _)
  · rw [← Nat.add_assoc, Nat.add_mul_mod_self_left, show c + (M - c + v) = M + v by omega,
      Nat.add_mod_left, Nat.mod_eq_of_lt hv]

/-- Settles O20: the execution has a k-th TICK for every k, and just before it CNT has moved by k;
k is chosen to reach v and to be no less than the number of TICKs before n. -/
theorem counterReachesEveryValue : Obligations.CounterReachesEveryValue := by
  rintro st op hexec hticks ⟨-, hW, -⟩ hcnt n v hv
  have hinf : {m | op m = .tick}.Infinite :=
    Nat.frequently_atTop_iff_infinite.mp (Filter.frequently_atTop.mpr hticks)
  obtain ⟨k, hk, hreach⟩ := exists_ge_add_mod_eq hcnt hv (Nat.count (op · = .tick) n)
  refine ⟨Nat.nth (op · = .tick) k, (Nat.count_le_iff_le_nth hinf).mp hk, ?_⟩
  rw [hexec.cnt_toNat hW hcnt, Nat.count_nth_of_infinite hinf, hreach]

end Sys2Proof.Machine
end

section
/-! PROOF of O21, O22, O27, O28, O31, O32 and O35. The level events, the two services, the interval
they measure, and the pending flags of an infinite execution. -/

namespace Sys2Proof.Machine

/-! The level events. -/

/-- Settles O21: START_PEND after the event is the model's, by the rule of the enabled falling
edge. -/
theorem pinASetsStartPending : Obligations.PinASetsStartPending := by
  refine fun s v => ⟨fun d => by cases v <;> rfl, rfl, _, exec_pinA v s, ?_⟩
  exact (Block.startPendAfter_eq_true_iff v s.block).trans (or_congr_right and_rotate)

/-- Settles O22: STOP_PEND after the event is the model's, by the rule of the enabled rising
edge. -/
theorem pinBSetsStopPending : Obligations.PinBSetsStopPending := by
  refine fun s v => ⟨fun d => by cases v <;> rfl, rfl, _, exec_pinB v s, ?_⟩
  exact (Block.stopPendAfter_eq_true_iff v s.block).trans (or_congr_right and_rotate)

/-! The services. -/

/-- The model enables SVC_START in the words of R116 and R118. -/
theorem State.startEnabled_eq_true_iff (s : State) :
    s.startEnabled = true ↔ s.StartEnabled := by
  rw [State.startEnabled_iff, State.StartEnabled]
  cases s.cfg.svcOrder <;> simp

/-- The model enables SVC_STOP in the words of R117 and R118. -/
theorem State.stopEnabled_eq_true_iff (s : State) :
    s.stopEnabled = true ↔ s.StopEnabled := by
  rw [State.stopEnabled_iff, State.StopEnabled]
  cases s.cfg.svcOrder <;> simp

/-- Settles O27: SVC_START answers its captures exactly where it is enabled. -/
theorem startServiceCapturesCounter : Obligations.StartServiceCapturesCounter := by
  refine ⟨fun _ => rfl, rfl, fun s => ?_⟩
  rw [← s.startEnabled_eq_true_iff]
  exact ⟨exec_svcStart_of_enabled, fun h _ hexec => h (execSvcStart_next hexec).1⟩

/-- Settles O28: SVC_STOP answers its writes exactly where it is enabled, the interval being the
difference reduced mod 2^W. -/
theorem stopServiceMeasuresAndEncodes : Obligations.StopServiceMeasuresAndEncodes := by
  refine ⟨fun _ => rfl, rfl, fun s ⟨_, hW, _⟩ => ?_⟩
  rw [← s.stopEnabled_eq_true_iff]
  exact ⟨fun h => ⟨s.measured, exec_svcStop_of_enabled h, wrapW_toNat hW _⟩,
    fun h _ hexec => h (execSvcStop_next hexec).1⟩

/-! The interval. -/

/-- The measured interval is the one value n below 2^W that leads from START_TICK to CNT (R121). -/
theorem measured_toNat_of_lt {s : State} (hW : s.cfg.cntWidth ≤ 32) {n : Nat}
    (hn : n < 2 ^ s.cfg.cntWidth)
    (hcnt : s.block.cnt.toNat = (s.block.startTick.toNat + n) % 2 ^ s.cfg.cntWidth) :
    s.measured.toNat = n :=
  (measured_toNat_of_ticks hW hcnt).trans (Nat.mod_eq_of_lt hn)

/-- Where START_TICK is not above CNT the interval is the plain difference (R122). -/
theorem State.Inv.measured_add_startTick_of_le {s : State} (hs : s.Inv)
    (hle : s.block.startTick.toNat ≤ s.block.cnt.toNat) :
    s.measured.toNat + s.block.startTick.toNat = s.block.cnt.toNat := by
  obtain ⟨⟨-, hW, -⟩, hcnt, -⟩ := hs
  obtain ⟨n, hn⟩ := Nat.exists_eq_add_of_le hle
  rw [measured_toNat_of_lt (n := n) hW (by omega) (by rw [← hn, Nat.mod_eq_of_lt hcnt]), hn,
    Nat.add_comm]

/-- Where START_TICK is above CNT the counter has wrapped once since the start (R122). -/
theorem State.Inv.measured_add_startTick_of_gt {s : State} (hs : s.Inv)
    (hgt : s.block.cnt.toNat < s.block.startTick.toNat) :
    s.measured.toNat + s.block.startTick.toNat =
      s.block.cnt.toNat + 2 ^ s.cfg.cntWidth := by
  obtain ⟨⟨-, hW, -⟩, hcnt, hstart, -⟩ := hs
  obtain ⟨n, hn⟩ := Nat.exists_eq_add_of_le (hstart.le.trans (Nat.le_add_left _ s.block.cnt.toNat))
  rw [measured_toNat_of_lt (n := n) hW (by omega)
    (by rw [← hn, Nat.add_mod_right, Nat.mod_eq_of_lt hcnt]), hn, Nat.add_comm]

/-- Settles O31: INTERVAL is the measured value, and START_TICK = 0 is not above CNT. -/
theorem intervalWrapsOnce : Obligations.IntervalWrapsOnce := by
  intro s t hs h
  obtain ⟨-, rfl⟩ := execSvcStop_next h
  refine ⟨hs.measured_add_startTick_of_le, hs.measured_add_startTick_of_gt,
    fun hzero => BitVec.eq_of_toNat_eq ?_⟩
  simpa [hzero, Block.latchStop_frame] using hs.measured_add_startTick_of_le

/-- Settles O32: SVC_START captures CNT as the operations before it leave it, and the two level
events are no TICKs. -/
theorem serviceLatencyCountsIn : Obligations.ServiceLatencyCountsIn := by
  intro is s t hlegal hcnt _ h
  obtain ⟨u, hbefore, hlast⟩ := runOps_append_next h
  obtain ⟨v, hstart, hnil⟩ := runOps_cons_next hlast
  cases hnil
  obtain ⟨-, rfl⟩ := execSvcStart_next hstart
  simpa using counterCountsTicks _ s u hlegal hcnt hbefore

/-! Weak fairness. -/

/-- In an execution a set flag that only the service j clears stays set as long as j is not taken;
so j is taken, if fairness takes it where the flag stays set. -/
theorem IsExecution.exists_service {st : Nat → State} {op : Nat → Instr} (h : IsExecution st op)
    {flag : Block → Bool} {j : Instr} {n : Nat}
    (hclear : ∀ {i s t}, exec i s = .next t → flag s.block = true → flag t.block = false → i = j)
    (hfair : (∀ m, n ≤ m → flag (st m).block = true) → ∃ m, n ≤ m ∧ op m = j)
    (hset : flag (st n).block = true) : ∃ m, n ≤ m ∧ op m = j := by
  by_contra hnever
  refine hnever (hfair (Nat.le_induction hset fun m hm hflag => ?_))
  by_contra hcleared
  exact hnever ⟨m, hm, hclear (h m) hflag (eq_false_of_ne_true hcleared)⟩

/-- Settles O35: under ANY a pending flag alone enables its service (R118), and only that service
clears the flag. -/
theorem pendingFlagsAreServiced : Obligations.PendingFlagsAreServiced := by
  rintro st op hexec ⟨hfairStart, hfairStop⟩ hany n
  have horder (m : Nat) : (st m).cfg.svcOrder = .any := by rw [hexec.cfg m, hany]
  constructor
  · refine hexec.exists_service (flag := Block.startPend)
      (fun hstep => (exec_frame hstep).startPend_clear) fun hset => ?_
    exact hfairStart n fun m hm => ⟨hset m hm, by simp [horder m]⟩
  · refine hexec.exists_service (flag := Block.stopPend)
      (fun hstep => (exec_frame hstep).stopPend_clear) fun hset => ?_
    exact hfairStop n fun m hm => ⟨hset m hm, by simp [horder m]⟩

end Sys2Proof.Machine
end

section
/-! PROOF of O37, O39 and O44. The rate converter in rationals: what rounding does at a value
with few enough bits, and the digits that the buffer shows. -/

namespace Sys2Proof.Machine

/-! The operations on fractions, in the rationals. -/

@[simp] theorem Frac.toRat_scale (q : Frac) (n : Nat) : (q.scale n).toRat = q.toRat * n := by
  simp [Frac.scale, Frac.toRat, div_mul_eq_mul_div]

@[simp] theorem Frac.toRat_div (p q : Frac) : (p.div q).toRat = p.toRat / q.toRat := by
  simp [Frac.div, Frac.toRat, div_div_div_eq]

theorem Frac.floor_eq_floor_toRat (q : Frac) : q.floor = ⌊q.toRat⌋₊ :=
  (Nat.floor_div_eq_div q.num q.den).symm

theorem Frac.floor_congr {p q : Frac} (h : p.toRat = q.toRat) : p.floor = q.floor := by
  rw [p.floor_eq_floor_toRat, q.floor_eq_floor_toRat, h]

theorem Frac.div_den_pos {p q : Frac} (hp : 0 < p.den) (hq : q.toRat ≠ 0) : 0 < (p.div q).den := by
  refine Nat.mul_pos hp (Nat.pos_of_ne_zero fun hnum => hq ?_)
  simp [Frac.toRat, hnum]

theorem roundBinary_den_pos (prec : Nat) (eMin : Int) (q : Frac) :
    0 < (roundBinary prec eMin q).den := by
  rw [roundBinary]
  split
  · exact Nat.one_pos
  · exact Frac.divPow2_den_pos Nat.one_pos _

/-! Rounding at a value of at most p + 1 significant bits. -/

section
variable {q : Frac} (hq : 0 < q.den) {p : Nat} (hp : p ≠ 0) {eMin : Int} {m : Nat} {e : Int}
  (hm : m < 2 ^ (p + 1)) (he : eMin ≤ e)
include hq hp hm he

/-- The value itself is not changed: none is nearer to it. -/
theorem roundBinary_toRat_of_eq (h : q.toRat = m * (2 : ℚ) ^ e) :
    (roundBinary (p + 1) eMin q).toRat = m * (2 : ℚ) ^ e := by
  obtain ⟨_, _, -, -, -, -, hbeats⟩ := roundBinary_nearest_even hq hp eMin
  have hnear := (hbeats m e hm he).1
  rw [h, sub_self, abs_zero] at hnear
  exact sub_eq_zero.mp (abs_nonpos_iff.mp hnear)

/-- What is not above the value is not rounded to above it: the value would be nearer. -/
theorem roundBinary_toRat_le (h : q.toRat ≤ m * (2 : ℚ) ^ e) :
    (roundBinary (p + 1) eMin q).toRat ≤ m * (2 : ℚ) ^ e := by
  obtain ⟨_, _, -, -, -, -, hbeats⟩ := roundBinary_nearest_even hq hp eMin
  have hnear := (hbeats m e hm he).1
  rw [abs_of_nonneg (sub_nonneg.mpr h)] at hnear
  linarith [le_abs_self ((roundBinary (p + 1) eMin q).toRat - q.toRat)]

end

/-! NORM by its mode (R141, R142), and with F_CNT = 2^15 under EXACT and in binary64 (R143). -/

theorem normalise_exact {c : Config} (hmode : c.numMode = .exact) (i : Word) :
    normalise c i = (Frac.ofNat i.toNat).div (Frac.ofNat c.fCnt) := by
  rw [normalise, hmode]

theorem normalise_binary32 {c : Config} (hmode : c.numMode = .binary32) (i : Word) :
    normalise c i =
      rne32 ((rne32 (Frac.ofNat i.toNat)).div (rne32 (Frac.ofNat c.fCnt))) := by
  rw [normalise, hmode]

/-- Under EXACT the value has 15 fraction bits. -/
theorem normalise_exact_toRat {c : Config} (hmode : c.numMode = .exact) (hf : c.fCnt = 2 ^ 15)
    (i : Word) : (normalise c i).toRat = i.toNat * (2 : ℚ) ^ (-15 : Int) := by
  rw [normalise_exact hmode, hf, Frac.toRat_div, Frac.toRat_ofNat, Frac.toRat_ofNat, zpow_neg,
    ← div_eq_mul_inv]
  norm_cast

/-- binary64 represents every multiple of 2^-15 below 2^38. -/
theorem rne64_toRat_of_eq {q : Frac} (hq : 0 < q.den) {m : Nat} (hm : m < 2 ^ 53)
    (h : q.toRat = m * (2 : ℚ) ^ (-15 : Int)) : (rne64 q).toRat = q.toRat :=
  (roundBinary_toRat_of_eq hq (p := 52) (by decide) hm (by decide) h).trans h.symm

/-- binary64 represents every integer below 2^53. -/
theorem rne64_ofNat_toRat {n : Nat} (hn : n < 2 ^ 53) : (rne64 (Frac.ofNat n)).toRat = n := by
  have h := roundBinary_toRat_of_eq (q := Frac.ofNat n) Nat.one_pos (p := 52) (by decide)
    (eMin := -1074) (e := 0) hn (by decide) (by simp)
  simpa [rne64] using h

/-- The quotient of R143 evaluated in binary64 has the value of NORM under EXACT. -/
theorem rne64_quotient_toRat {c : Config} (hmode : c.numMode = .exact) (hf : c.fCnt = 2 ^ 15)
    (i : Word) :
    (rne64 ((rne64 (Frac.ofNat i.toNat)).div (rne64 (Frac.ofNat c.fCnt)))).toRat =
      (normalise c i).toRat := by
  have hi := rne64_ofNat_toRat (i.isLt.trans (by decide : 2 ^ 32 < 2 ^ 53))
  have hc : (rne64 (Frac.ofNat c.fCnt)).toRat = c.fCnt := rne64_ofNat_toRat (by rw [hf]; decide)
  have hquot : ((rne64 (Frac.ofNat i.toNat)).div (rne64 (Frac.ofNat c.fCnt))).toRat =
      (normalise c i).toRat := by simp [hi, hc, normalise_exact hmode]
  rw [← hquot]
  exact rne64_toRat_of_eq (Frac.div_den_pos (roundBinary_den_pos ..) (by rw [hc, hf]; norm_num))
    (i.isLt.trans (by decide)) (hquot.trans (normalise_exact_toRat hmode hf i))

/-- Each product with a factor up to 1000 is an integer below 2^53 times 2^-15 (R143). -/
theorem normalise_exact_scale {c : Config} (hmode : c.numMode = .exact) (hf : c.fCnt = 2 ^ 15)
    (i : Word) {n : Nat} (hn : n ≤ 1000) : i.toNat * n < 2 ^ 53 ∧
      ((normalise c i).scale n).toRat = (i.toNat * n : Nat) * (2 : ℚ) ^ (-15 : Int) := by
  constructor
  · calc i.toNat * n ≤ 2 ^ 32 * 1000 := Nat.mul_le_mul i.isLt.le hn
      _ < 2 ^ 53 := by decide
  · rw [Frac.toRat_scale, normalise_exact_toRat hmode hf, Nat.cast_mul]
    ring

/-- Settles O44: the quotient and each product has few enough bits for binary64, so no step rounds,
and equal values have equal floors. -/
theorem exactEqualsBinary64 : Obligations.ExactEqualsBinary64 := by
  intro c i v hf hmode hv
  have hquot : v.toRat = (normalise c i).toRat := hv ▸ rne64_quotient_toRat hmode hf i
  have hden : 0 < v.den := hv ▸ roundBinary_den_pos ..
  have hprod {n : Nat} (hn : n ≤ 1000) :
      (rne64 (v.scale n)).toRat = ((normalise c i).scale n).toRat := by
    obtain ⟨hlt, hval⟩ := normalise_exact_scale hmode hf i hn
    have hscale : (v.scale n).toRat = ((normalise c i).scale n).toRat := by simp [hquot]
    rw [← hscale]
    exact rne64_toRat_of_eq hden hlt (hscale.trans hval)
  refine ⟨hquot, ?_, ?_, ?_⟩
  · exact fun n hn => hprod ((by decide : ∀ n ∈ [10, 100, 1000], n ≤ 1000) n hn)
  · rw [hmode, Frac.floor_congr hquot, Frac.floor_congr (hprod (n := 10) (by decide)),
      Frac.floor_congr (hprod (n := 100) (by decide)),
      Frac.floor_congr (hprod (n := 1000) le_rfl)]
    rfl
  · exact fun n hn => ⟨_, normalise_exact_scale hmode hf i
      ((by decide : ∀ n ∈ [1, 10, 100, 1000], n ≤ 1000) n hn)⟩

/-! The range of first with F_CNT = 2^15 (R145, R164). -/

/-- binary32 represents every power of two from 2^0 on, so RNE32 does not carry past it. -/
theorem rne32_toRat_le_two_pow {q : Frac} (hq : 0 < q.den) {k : Nat} (h : q.toRat ≤ 2 ^ k) :
    (rne32 q).toRat ≤ 2 ^ k := by
  simpa [rne32] using roundBinary_toRat_le hq (p := 23) (by decide) (m := 1) (e := k) (by decide)
    (by omega) (by simpa using h)

theorem rne32_two_pow_toRat (k : Nat) : (rne32 (Frac.ofNat (2 ^ k))).toRat = 2 ^ k := by
  simpa [rne32] using roundBinary_toRat_of_eq (q := Frac.ofNat (2 ^ k)) Nat.one_pos (p := 23)
    (by decide) (m := 1) (e := k) (by decide) (by omega) (by simp)

/-- Under BINARY32 the interval is rounded to 2^32 at most, and the value to 2^17 at most. -/
theorem normalise_binary32_toRat_le {c : Config} (hmode : c.numMode = .binary32)
    (hf : c.fCnt = 2 ^ 15) (i : Word) : (normalise c i).toRat ≤ 2 ^ 17 := by
  have hi : (rne32 (Frac.ofNat i.toNat)).toRat ≤ 2 ^ 32 :=
    rne32_toRat_le_two_pow Nat.one_pos (by rw [Frac.toRat_ofNat]; exact_mod_cast i.isLt.le)
  have hc := rne32_two_pow_toRat 15
  rw [normalise_binary32 hmode, hf]
  refine rne32_toRat_le_two_pow
    (Frac.div_den_pos (roundBinary_den_pos ..) (by rw [hc]; positivity)) ?_
  rw [Frac.toRat_div, hc, div_le_iff₀ (by positivity)]
  exact hi.trans_eq (by norm_num)

/-- Settles O39: under EXACT first is I div 2^15, under BINARY32 the floor of a value that is at
most 2^17; the greatest interval by computation. -/
theorem firstDigitRange : Obligations.FirstDigitRange := by
  intro c hf
  have hexact (i : Word) :
      (digits .exact (normalise { c with numMode := .exact } i)).first = i.toNat / 2 ^ 15 := by
    simp [digits, normalise_exact, Frac.floor, Frac.div, Frac.ofNat, hf]
  refine ⟨fun i => ⟨?_, ?_⟩, ?_, ?_⟩
  · rw [hexact]
    omega
  · have hle := normalise_binary32_toRat_le (c := { c with numMode := .binary32 }) rfl hf i
    rw [digits, Frac.floor_eq_floor_toRat]
    exact Nat.floor_le_of_le (hle.trans_eq (by norm_num))
  · rw [hexact]
    decide
  · rw [normalise_binary32 rfl]
    simp only [hf]
    decide

/-! The buffer by its digits. -/

theorem shiftedSlot_iff (s : Fin 4) : shiftedSlot s = true ↔ s.val % 2 = 1 := by
  revert s
  decide

/-- A pattern of the model is the pattern byte of R168 and R169. -/
theorem pat_toNat (glyph : Vector Glyph 10) (d : Nat) (s : Fin 4) :
    (pat glyph d s).1.toNat = patByte glyph Glyph.g0 d s ∧
      (pat glyph d s).2.toNat = patByte glyph Glyph.g1 d s := by
  by_cases hd : d < 10
  · have hle : d ≤ 9 := by omega
    simp only [pat, patByte, hd, hle, dite_true]
    cases hexempt : glyph[d].exempt with
    | true => simp
    | false =>
      by_cases hodd : s.val % 2 = 1
      · simp [(shiftedSlot_iff s).mpr hodd, hodd, Nat.shiftLeft_eq]
      · simp [mt (shiftedSlot_iff s).mp hodd, hodd]
  · have hle : ¬ d ≤ 9 := by omega
    simp [pat, patByte, hd, hle]

/-- The buffer of four digits shows them (R167, R173). -/
theorem showsDigits_columnsOf (glyph : Vector Glyph 10) (d : Digits) :
    ShowsDigits glyph d.slot (columnsOf glyph d) := by
  intro s
  obtain ⟨hlo, hhi⟩ := columnsOf_pair glyph d s
  rw [hlo, hhi]
  exact pat_toNat glyph (d.slot s) s

/-- The extra modulo stages change no digit (R164). -/
theorem digits_slot (m : NumMode) (v : Frac) : (digits m v).slot =
    ![v.floor, (roundProduct m (v.scale 10)).floor % 10,
      (roundProduct m (v.scale 100)).floor % 10, (roundProduct m (v.scale 1000)).floor % 10] := by
  funext s
  fin_cases s
  · rfl
  · rfl
  · exact Nat.mod_mod_of_dvd _ (by decide)
  · exact (Nat.mod_mod_of_dvd _ (by decide)).trans (Nat.mod_mod_of_dvd _ (by decide))

/-- SVC_STOP shows the digits of NORM of the new INTERVAL (R117). -/
theorem svcStop_showsDigits {s t : State} (h : exec .svcStop s = .next t) :
    ShowsDigits s.cfg.glyph (digits s.cfg.numMode (normalise s.cfg t.block.interval)).slot
      t.block.col := by
  obtain ⟨-, rfl⟩ := execSvcStop_next h
  exact showsDigits_columnsOf _ _

/-- Settles O37: the value is NORM under BINARY32, and each of its products is rounded. -/
theorem binary32DigitsShown : Obligations.Binary32DigitsShown := by
  rintro s t - hmode h v rfl
  have hshown := svcStop_showsDigits h
  rw [digits_slot, hmode, normalise_binary32 hmode] at hshown
  exact hshown

end Sys2Proof.Machine
end

section
/-! PROOF of O36, O38, O40, O41 and O42. The digit encoder: what SVC_STOP writes by the new
INTERVAL, the range of its digits, and the patterns of digit 3 and of an out-of-range digit. -/

namespace Sys2Proof.Machine

/-! What SVC_STOP writes. -/

theorem svcStop_interval {s t : State} (h : exec .svcStop s = .next t) :
    t.block.interval = s.measured := by
  obtain ⟨-, rfl⟩ := execSvcStop_next h
  rfl

theorem svcStop_col {s t : State} (h : exec .svcStop s = .next t) :
    t.block.col = enc s.cfg (normalise s.cfg t.block.interval) := by
  obtain ⟨-, rfl⟩ := execSvcStop_next h
  rfl

/-- The pair of slot k holds the pattern of its digit (R167, R173). -/
theorem svcStop_col_pair {s t : State} (h : exec .svcStop s = .next t) (k : Fin 4) :
    (t.block.col[2 * k.val], t.block.col[2 * k.val + 1]) = pat s.cfg.glyph
      ((digits s.cfg.numMode (normalise s.cfg t.block.interval)).slot k) k := by
  rw [svcStop_col h, Prod.ext_iff]
  exact columnsOf_pair _ _ k

/-- INTERVAL reads the counter, START_TICK and the width alone. -/
theorem State.measured_congr {s s' : State} (hcfg : s.cfg = s'.cfg)
    (hcnt : s.block.cnt = s'.block.cnt) (hstart : s.block.startTick = s'.block.startTick) :
    s.measured = s'.measured := by
  rw [State.measured, State.measured, hcfg, hcnt, hstart]

/-- Settles O42: INTERVAL is the interval measured, and COL is ENC of it. -/
theorem encoderIgnoresOldBuffer : Obligations.EncoderIgnoresOldBuffer := by
  intro s s' t t' hcfg h h'
  refine ⟨fun hcnt hstart => ?_, fun hint => ?_⟩
  · rw [svcStop_interval h, svcStop_interval h', State.measured_congr hcfg hcnt hstart]
  · rw [svcStop_col h, svcStop_col h', hcfg, hint]

/-! The digits. -/

/-- Slots 1 to 3 hold decimal digits: each is a residue mod 10. -/
theorem digits_slot_le_nine (m : NumMode) (v : Frac) {k : Fin 4} (hk : k ≠ 0) :
    (digits m v).slot k ≤ 9 := by
  have hmod (n : Nat) : n % 10 ≤ 9 := Nat.le_of_lt_succ (Nat.mod_lt n (by decide))
  fin_cases k
  · exact absurd rfl hk
  · exact hmod _
  · exact hmod _
  · exact hmod _

/-- Settles O38: a residue mod 100 or 1000 has the same last digit. -/
theorem extraModuloChangesNothing : Obligations.ExtraModuloChangesNothing := by
  intro m v
  have hslot := congrFun (digits_slot m v)
  exact ⟨hslot 2, hslot 3, digits_slot_le_nine m v (k := 1) (by decide),
    digits_slot_le_nine m v (k := 2) (by decide), digits_slot_le_nine m v (k := 3) (by decide)⟩

/-- The floor of a product under EXACT, in integers (R162). -/
theorem normalise_exact_scale_floor {c : Config} (hmode : c.numMode = .exact) (i : Word) (n : Nat) :
    ((normalise c i).scale n).floor = n * i.toNat / c.fCnt := by
  simp [normalise_exact hmode, Frac.scale, Frac.div, Frac.ofNat, Frac.floor, Nat.mul_comm]

theorem normalise_exact_floor {c : Config} (hmode : c.numMode = .exact) (i : Word) :
    (normalise c i).floor = i.toNat / c.fCnt := by
  simp [normalise_exact hmode, Frac.div, Frac.ofNat, Frac.floor]

/-- The integer computation of R162. -/
theorem digits_normalise_exact {c : Config} (hmode : c.numMode = .exact) (i : Word) :
    digits c.numMode (normalise c i) =
      ⟨i.toNat / c.fCnt, 10 * i.toNat / c.fCnt % 10, 100 * i.toNat / c.fCnt % 100 % 10,
        1000 * i.toNat / c.fCnt % 1000 % 100 % 10⟩ := by
  simp only [digits, hmode, roundProduct, normalise_exact_floor hmode,
    normalise_exact_scale_floor hmode]

theorem Digits.slot_mk (a b c d : Nat) : Digits.slot ⟨a, b, c, d⟩ = ![a, b, c, d] := by
  funext k
  fin_cases k <;> rfl

/-- Settles O36: the digits of NORM are the integers of R162. -/
theorem exactDigitsShown : Obligations.ExactDigitsShown := by
  rintro s t - hmode h
  have hshown := svcStop_showsDigits h
  rwa [digits_normalise_exact hmode, Digits.slot_mk] at hshown

/-! The patterns. -/

/-- Digit 3 is exempt: its pair stands as it is in every slot (R165, R168). -/
theorem pat_three {glyph : Vector Glyph 10} (h : Glyph.Legal 3 glyph[3]) (k : Fin 4) :
    pat glyph 3 k = (21#8, 31#8) := by
  obtain ⟨hg0, hg1, hexempt⟩ := h
  simp [pat, hg0, hg1, hexempt]

/-- Settles O40: the pair of the slot holds the pattern of digit 3. -/
theorem digitThreeIsNeverShifted : Obligations.DigitThreeIsNeverShifted := by
  rintro s t k ⟨-, -, -, hglyph⟩ h hthree
  have hpair := svcStop_col_pair h k
  rw [hthree, pat_three (hglyph 3)] at hpair
  exact Prod.ext_iff.mp hpair

/-- An out-of-range digit writes nothing (R171). -/
theorem pat_of_nine_lt (glyph : Vector Glyph 10) {d : Nat} (hd : 9 < d) (k : Fin 4) :
    pat glyph d k = (0, 0) :=
  dif_neg (Nat.not_lt.mpr hd)

theorem pat_refGlyph_fst_ne_zero (d : Fin 10) (k : Fin 4) :
    (pat Config.refGlyph d k).1 ≠ 0 := by
  revert d k
  decide

/-- REF_GLYPH's first pattern is 0 for the out-of-range digits and for no other (R166, R171). -/
theorem pat_refGlyph_fst_eq_zero_iff (d : Nat) (k : Fin 4) :
    (pat Config.refGlyph d k).1 = 0 ↔ 9 < d := by
  refine ⟨fun hzero => ?_, fun hd => by rw [pat_of_nine_lt _ hd]⟩
  by_contra hd
  exact pat_refGlyph_fst_ne_zero ⟨d, by omega⟩ k hzero

/-- Settles O41: COL[2k] is 0 exactly where the digit of slot k is above 9, which only first can
be. -/
theorem outOfRangeFirstIsBlank : Obligations.OutOfRangeFirstIsBlank := by
  rintro s t ⟨-, -, hf, -⟩ hmode hglyph h
  have hpair := svcStop_col_pair h
  rw [hglyph] at hpair
  have hfirst : 9 < (digits s.cfg.numMode (normalise s.cfg t.block.interval)).slot 0 ↔
      10 * s.cfg.fCnt ≤ t.block.interval.toNat := by
    rw [digits_normalise_exact hmode]
    exact Nat.le_div_iff_mul_le hf
  have hzero (k : Fin 4) : t.block.col[2 * k.val] = 0 ↔
      9 < (digits s.cfg.numMode (normalise s.cfg t.block.interval)).slot k := by
    rw [← pat_refGlyph_fst_eq_zero_iff _ k, ← hpair k]
  have hshown {k : Fin 4} (hk : k ≠ 0) : t.block.col[2 * k.val] ≠ 0 :=
    mt (hzero k).mp (Nat.not_lt.mpr (digits_slot_le_nine _ _ hk))
  refine ⟨(hzero 0).trans hfirst, fun hblank => ?_, hshown (k := 1) (by decide),
    hshown (k := 2) (by decide), hshown (k := 3) (by decide)⟩
  have hblankPair := hpair 0
  rw [pat_of_nine_lt _ (hfirst.mpr hblank)] at hblankPair
  exact congrArg Prod.snd hblankPair

end Sys2Proof.Machine
end

section
/-! PROOF of O13, O45 and O49. The host interface: the bits of CTRL and STATUS as the host reads
them, the write of CTRL, and which operations read STATUS. -/

namespace Sys2Proof.Machine

/-- Settles O13: only RD_STATUS reads a pending flag or MEAS; BUS_FAULT takes its code from the
access alone. -/
theorem hostOperationsIgnoreFlags : Obligations.HostOperationsIgnoreFlags := by
  intro i s t p q m hhost hstatus h
  cases i with
  | tick | pinA v | pinB v | svcStart | svcStop => cases hhost
  | rdStatus => exact absurd rfl hstatus
  | busFault a =>
    obtain ⟨code, hcode, rfl⟩ := execBusFault_next h
    exact exec_busFault_of_code hcode _
  | wrCtrl d | rdCtrl | rdCnt | rdStartTick | rdInterval | rdColbufLo | rdColbufHi | rdColb k =>
    cases h; rfl

/-- CTRL from bit 0 up: START_EN, STOP_EN, and zeros (R27). -/
theorem Block.ctrlWord_getLsbD (b : Block) (i : Nat) :
    b.ctrlWord.getLsbD i = [b.startEn, b.stopEn].getD i false := by
  rw [Block.ctrlWord, BitVec.getLsbD_setWidth, BitVec.getLsbD_append]
  match i with
  | 0 | 1 | _ + 2 => simp

/-- STATUS from bit 0 up: START_PEND, STOP_PEND, MEAS, and zeros (R28). -/
theorem Block.statusWord_getLsbD (b : Block) (i : Nat) :
    b.statusWord.getLsbD i = [b.startPend, b.stopPend, b.meas].getD i false := by
  rw [Block.statusWord, BitVec.getLsbD_setWidth, BitVec.getLsbD_append, BitVec.getLsbD_append]
  match i with
  | 0 | 1 | 2 | _ + 3 => simp

/-- Settles O45: the two words are the reads of CTRL and STATUS, whose results are read off bit by
bit. -/
theorem controlAndStatusReads : Obligations.ControlAndStatusReads := by
  refine ⟨fun _ => rfl, fun _ => rfl, fun s => ⟨?_, ?_⟩⟩
  · have hbit := s.block.ctrlWord_getLsbD
    exact ⟨_, exec_rdCtrl s, hbit 0, hbit 1,
      fun i hi => (hbit i).trans (List.getD_eq_default _ _ hi)⟩
  · have hbit := s.block.statusWord_getLsbD
    exact ⟨_, exec_rdStatus s, hbit 0, hbit 1, hbit 2,
      fun i hi => (hbit i).trans (List.getD_eq_default _ _ hi)⟩

/-- Settles O49: D[0] and D[1], the enables WR_CTRL writes, are the last two binary digits of D. -/
theorem writeControlStoresEnables : Obligations.WriteControlStoresEnables := by
  refine ⟨fun _ => rfl, fun s d => ?_⟩
  have hbit (k : Nat) : d.getLsbD k = decide (d.toNat / 2 ^ k % 2 = 1) :=
    Nat.testBit_eq_decide_div_mod_eq
  rw [exec_wrCtrl, hbit, hbit, pow_zero, Nat.div_one, pow_one]
  rfl

end Sys2Proof.Machine
end
section
/-! PROOF of O52. The causes of R221 by the fields of the access, in the order of R223. -/

namespace Sys2Proof.Machine

/-- At a mapped offset the column bytes are the offsets from 0x20 on, so 8 bits are a wrong size
below 0x20 only. -/
theorem Access.badSize_iff_of_mapped {a : Access}
    (hmapped : a.off.toNat ≤ 0x13 ∨ 0x20 ≤ a.off.toNat ∧ a.off.toNat ≤ 0x27) :
    a.badSize = true ↔ a.size = .b16 ∨ a.size = .b8 ∧ a.off.toNat < 0x20 := by
  rw [← Bool.not_eq_false, Access.badSize_eq_false_iff]
  cases a.size with
  | b16 | b32 => simp
  | b8 => simp; omega

theorem Access.badAlign_iff (a : Access) :
    a.badAlign = true ↔ a.size = .b32 ∧ a.off.toNat % 4 ≠ 0 := by
  rw [← Bool.not_eq_false, Access.badAlign_eq_false_iff, Classical.not_imp]

theorem Access.roWrite_iff (a : Access) :
    a.roWrite = true ↔ a.dir ≠ .read ∧ a.off.toNat ≠ 0 := by
  rw [← Bool.not_eq_false, Access.roWrite_eq_false_iff, Classical.not_imp]

/-- R223 by the fields of the access, cause by cause; that of ERR_SIZE is asked only at a mapped
offset. -/
theorem Access.faultCode_eq (a : Access) : a.faultCode =
    if ¬ (a.off.toNat ≤ 0x13 ∨ 0x20 ≤ a.off.toNat ∧ a.off.toNat ≤ 0x27) then some .unmapped
    else if a.size = .b16 ∨ a.size = .b8 ∧ a.off.toNat < 0x20 then some .size
    else if a.size = .b32 ∧ a.off.toNat % 4 ≠ 0 then some .align
    else if a.dir ≠ .read ∧ a.off.toNat ≠ 0 then some .roWrite
    else none := by
  have hunmapped : mappedOffset a.off = false ↔
      ¬ (a.off.toNat ≤ 0x13 ∨ 0x20 ≤ a.off.toNat ∧ a.off.toNat ≤ 0x27) := by
    rw [← mappedOffset_iff, Bool.not_eq_true]
  rw [Access.faultCode]
  refine ite_congr (propext hunmapped) (fun _ => rfl) fun hmapped => ?_
  exact if_congr (Access.badSize_iff_of_mapped (not_not.mp hmapped)) rfl
    (if_congr (Access.badAlign_iff a) rfl (if_congr (Access.roWrite_iff a) rfl rfl))

/-- Settles O52; the four examples are instances of the chain. -/
theorem firstApplicableFault : Obligations.FirstApplicableFault :=
  ⟨Access.faultCode_eq, fun d => by simp [Access.faultCode_eq]⟩

end Sys2Proof.Machine
end

section
/-! PROOF of O26, O33 and O54. The frame that stands while no stop can become pending, the recorded
levels that a run forgets, and the two services taken back to back. -/

namespace Sys2Proof.Machine

/-! No stop can become pending. -/

/-- PIN_B cannot request a service, and no request stands (R273). -/
structure State.StopIdle (s : State) : Prop where
  stopEn : s.block.stopEn = false
  stopPend : s.block.stopPend = false

/-- SVC_STOP has no step without a pending stop (R117, R225). -/
theorem State.StopIdle.ne_svcStop {i : Instr} {s t : State} (hs : s.StopIdle)
    (h : exec i s = .next t) : i ≠ .svcStop := by
  rintro rfl
  have hpending := (s.stopEnabled_iff.mp (execSvcStop_next h).1).1
  exact Bool.false_ne_true (hs.stopPend.symm.trans hpending)

/-- STOP_EN is written by WR_CTRL alone, and without it a rising edge of PIN_B is not captured
(R113). -/
theorem exec_keeps_stopIdle {i : Instr} {s t : State} (hs : s.StopIdle)
    (hi : isWrCtrl i = false) (h : exec i s = .next t) : t.StopIdle := by
  have frame := exec_frame h
  refine ⟨(frame.stopEn hi).trans hs.stopEn, eq_false_of_ne_true fun hset => ?_⟩
  obtain rfl := frame.stopPend_set hs.stopPend hset
  cases h
  simp [hs.stopEn, hs.stopPend] at hset

/-- Only SVC_STOP writes COL and INTERVAL, and a run without WR_CTRL takes none (R273). -/
theorem State.StopIdle.runOps_frame {is : List Instr} {s t : State} (hs : s.StopIdle)
    (hnoWrite : ∀ i ∈ is, isWrCtrl i = false) (h : runOps is s = .next t) :
    .svcStop ∉ is ∧ t.block.col = s.block.col ∧ t.block.interval = s.block.interval ∧
      t.StopIdle := by
  induction is generalizing s with
  | nil => cases h; exact ⟨List.not_mem_nil, rfl, rfl, hs⟩
  | cons i is ih =>
    obtain ⟨u, hexec, hrun⟩ := runOps_cons_next h
    obtain ⟨hi, his⟩ := List.forall_mem_cons.mp hnoWrite
    obtain ⟨hnoStop, hcol, hinterval, ht⟩ := ih (exec_keeps_stopIdle hs hi hexec) his hrun
    have hne := hs.ne_svcStop hexec
    have frame := exec_frame hexec
    exact ⟨List.not_mem_cons_of_ne_of_not_mem hne.symm hnoStop, hcol.trans (frame.col hne),
      hinterval.trans (frame.interval hne), ht⟩

/-- Settles O54, by the induction on the run above. -/
theorem consistentFrame : Obligations.ConsistentFrame := by
  intro is s t hen hpend hnoWrite h
  obtain ⟨hnoStop, hcol, hinterval, ht⟩ := State.StopIdle.runOps_frame ⟨hen, hpend⟩ hnoWrite h
  exact ⟨hnoStop, hcol, hinterval, ht.stopPend, ht.stopEn⟩

/-! The recorded levels. -/

/-- The recorded levels changed by f and g, and nothing else. -/
def State.mapLevels (f g : Bool → Bool) (s : State) : State :=
  s.setBlock ((s.block.setLvlA (f s.block.lvlA)).setLvlB (g s.block.lvlB))

/-- An operation that is no level event neither reads nor writes the recorded levels (R31). -/
theorem exec_mapLevels {i : Instr} (hi : i.agent ≠ .env) (f g : Bool → Bool) (s : State) :
    exec i (s.mapLevels f g) = andThen (.next ∘ State.mapLevels f g) (exec i s) := by
  cases i with
  | pinA v | pinB v => exact absurd rfl hi
  | svcStart => rw [exec_svcStart s, apply_ite (andThen _)]; rfl
  | svcStop => rw [exec_svcStop s, apply_ite (andThen _)]; rfl
  | busFault a => rw [exec_busFault, exec_busFault]; cases a.faultCode <;> rfl
  | tick | wrCtrl d | rdCtrl | rdStatus | rdCnt | rdStartTick | rdInterval | rdColbufLo
  | rdColbufHi | rdColb k => rfl

/-- A level event on PIN_B neither reads nor writes LVL_A (R113). -/
theorem exec_mapLevels_lvlA {i : Instr} (hi : isPinA i = false) (f : Bool → Bool) (s : State) :
    exec i (s.mapLevels f id) = andThen (.next ∘ State.mapLevels f id) (exec i s) := by
  cases i with
  | pinA v => cases v <;> cases hi
  | pinB v => rfl
  | _ => exact exec_mapLevels (by simp [Instr.agent]) f id s

/-- A level event on PIN_A neither reads nor writes LVL_B (R112). -/
theorem exec_mapLevels_lvlB {i : Instr} (hi : isPinB i = false) (g : Bool → Bool) (s : State) :
    exec i (s.mapLevels id g) = andThen (.next ∘ State.mapLevels id g) (exec i s) := by
  cases i with
  | pinA v => rfl
  | pinB v => cases v <;> cases hi
  | _ => exact exec_mapLevels (by simp [Instr.agent]) id g s

/-- Driven high, PIN_A has no falling edge, whatever level was recorded (R111, R112). -/
theorem exec_pinA_true_mapLevels (f : Bool → Bool) (s : State) :
    exec (.pinA true) (s.mapLevels f id) = exec (.pinA true) s := by
  rw [exec_pinA, exec_pinA, Block.startPendAfter_true, Block.startPendAfter_true]
  rfl

/-- Driven low, PIN_B has no rising edge, whatever level was recorded (R111, R113). -/
theorem exec_pinB_false_mapLevels (g : Bool → Bool) (s : State) :
    exec (.pinB false) (s.mapLevels id g) = exec (.pinB false) s := by
  rw [exec_pinB, exec_pinB, Block.stopPendAfter_false, Block.stopPendAfter_false]
  rfl

theorem runOps_cons_eq_andThen (i : Instr) (is : List Instr) (s : State) :
    runOps (i :: is) s = andThen (runOps is) (exec i s) := by
  rw [runOps]
  cases exec i s <;> rfl

/-- A run forgets a change f of its start if the first operation of the kind p forgets it and the
operations before that one, which are not of the kind p, only pass it on. -/
theorem runOps_forgets {f : State → State} {p : Instr → Bool} {first : Instr}
    (hpasses : ∀ i s, p i = false → exec i (f s) = andThen (.next ∘ f) (exec i s))
    (hforgets : ∀ s, exec first (f s) = exec first s) {is : List Instr}
    (hfirst : is.find? p = some first) (s : State) : runOps is (f s) = runOps is s := by
  induction is generalizing s with
  | nil => cases hfirst
  | cons i is ih =>
    rw [runOps_cons_eq_andThen, runOps_cons_eq_andThen]
    cases hi : p i with
    | true =>
      rw [List.find?_cons_of_pos hi] at hfirst
      cases hfirst
      rw [hforgets]
    | false =>
      rw [List.find?_cons_of_neg (Bool.not_eq_true _ ▸ hi)] at hfirst
      rw [hpasses i s hi]
      cases exec i s with
      | next t => exact ih hfirst t
      | fault r | refused r => rfl

/-- A run whose first level event of PIN_A is high and of PIN_B low forgets both recorded levels,
one after the other. -/
theorem runOps_forgets_levels {is : List Instr} (hA : is.find? isPinA = some (.pinA true))
    (hB : is.find? isPinB = some (.pinB false)) (f g : Bool → Bool) (s : State) :
    runOps is (s.mapLevels f g) = runOps is s :=
  calc runOps is (s.mapLevels f g)
      = runOps is ((s.mapLevels f id).mapLevels id g) := rfl
    _ = runOps is (s.mapLevels f id) := runOps_forgets (f := State.mapLevels id g)
        (fun _ u hi => exec_mapLevels_lvlB hi g u) (exec_pinB_false_mapLevels g) hB _
    _ = runOps is s := runOps_forgets (f := State.mapLevels f id)
        (fun _ u hi => exec_mapLevels_lvlA hi f u) (exec_pinA_true_mapLevels f) hA s

/-- Operations of the other agents hold no level event. -/
theorem find?_isPin_eq_none {is : List Instr} (h : ∀ i ∈ is, i.agent ≠ .env) :
    is.find? isPinA = none ∧ is.find? isPinB = none := by
  constructor
  all_goals
    refine List.find?_eq_none.mpr fun i hi hpin => h i hi ?_
    obtain rfl | rfl := of_decide_eq_true hpin <;> rfl

/-- Settles O26: in R265's own two cycles the first level events are those of the general clause. -/
theorem drawsAreForgotten : Obligations.DrawsAreForgotten := by
  refine ⟨fun s a b is hA hB => runOps_forgets_levels hA hB (fun _ => a) (fun _ => b) s,
    fun s a b is ks js hothers run hrun => ?_⟩
  obtain ⟨⟨his, hks⟩, -⟩ : ((∀ i ∈ is, i.agent ≠ .env) ∧ ∀ i ∈ ks, i.agent ≠ .env) ∧
      ∀ i ∈ js, i.agent ≠ .env := by simpa only [List.forall_mem_append] using hothers
  obtain ⟨hisA, hisB⟩ := find?_isPin_eq_none his
  obtain ⟨hksA, hksB⟩ := find?_isPin_eq_none hks
  refine runOps_forgets_levels ?_ ?_ (fun _ => a) (fun _ => b) s
  all_goals fin_cases hrun <;> simp [isPinA, isPinB, hisA, hisB, hksA, hksB]

/-! Both services back to back. -/

/-- Under ANY a pending start alone enables its service (R118). -/
theorem startEnabled_of_any {s : State} (hany : s.cfg.svcOrder = .any)
    (hpend : s.block.startPend = true) : s.startEnabled = true :=
  s.startEnabled_iff.mpr ⟨hpend, .inl hany⟩

/-- Under ANY a pending stop alone enables its service (R118). -/
theorem stopEnabled_of_any {s : State} (hany : s.cfg.svcOrder = .any)
    (hpend : s.block.stopPend = true) : s.stopEnabled = true :=
  s.stopEnabled_iff.mpr ⟨hpend, .inl hany⟩

/-- An interval that starts at the present counter is 0 (R121). -/
theorem measured_eq_zero {s : State} (h : s.block.startTick = s.block.cnt) : s.measured = 0 := by
  simp [State.measured, wrapW, h]

/-- Settles O33: each service leaves the other's flag pending, so both orders complete. -/
theorem bothPendingOrders : Obligations.BothPendingOrders := by
  intro s hlegal hany hstart hstop
  obtain ⟨-, hW, -⟩ := hlegal
  have hstopFirst :=
    (runOps_cons (is := [.svcStart])
      (exec_svcStop_of_enabled (stopEnabled_of_any hany hstop))).trans
    (runOps_cons (is := []) (exec_svcStart_of_enabled (startEnabled_of_any hany hstart)))
  have hstartFirst :=
    (runOps_cons (is := [.svcStop])
      (exec_svcStart_of_enabled (startEnabled_of_any hany hstart))).trans
    (runOps_cons (is := []) (exec_svcStop_of_enabled (stopEnabled_of_any hany hstop)))
  exact ⟨_, _, hstopFirst, hstartFirst, wrapW_toNat hW _, rfl, rfl, measured_eq_zero rfl,
    rfl, rfl, rfl, rfl, rfl, rfl⟩

end Sys2Proof.Machine
end
